-- ==== Sys2Proof/Word.lean ====
section
/-! DEFINITION. The word types of the SRC-4 and their plainest arithmetic.

Bit vectors are used where the manual gives a width that wraps (odometer, marks, stamps, shift
number) or saturates (counts, cop length), and for the bytes and fields of telegrams and tables. -/

namespace Sys2Proof

/-- A byte of a telegram, a table or a station address. -/
abbrev Byte := BitVec 8

/-- A two-byte field. -/
abbrev Half := BitVec 16

/-- A 5-bit code group of a segment (R1). -/
abbrev Group := BitVec 5

/-- An odometer value or a mark measured against it, in mm, modulo 2^40 (R37, R44). -/
abbrev Mm := BitVec 40

/-- A frame of the row, 0 to 3. -/
abbrev FrameNo := Fin 4

/-- A sequence channel, 0 to 4; channels 0–3 belong to frames, channel 4 to the train (R101). -/
abbrev ChannelNo := Fin 5

end Sys2Proof
end

