-- ==== Sys2Proof/Syntax.lean ====
section
/-! DEFINITION. The commands of the SRC-4: one constructor for each row of spec/opcode_table.json,
with the line-level content of the telegrams they stand for. -/

namespace Sys2Proof

/-- The two ports (1.1). -/
inductive Port
  | floor
  | mill
  deriving DecidableEq, Repr

/-- The two sides of a frame (0.3). -/
inductive Side
  | a
  | b
  deriving DecidableEq, Repr

/-- The marks that begin a telegram (R1). -/
inductive StartMark
  | station
  | part
  | pass
  deriving DecidableEq, Repr

/-- The four marks (R1). -/
inductive Mark
  | start (m : StartMark)
  | lineReset
  deriving DecidableEq, Repr

/-- A whole telegram: mark, header and body (1.3). The length byte is the body's length and the
check is the code of R4 over header and body; neither is stored twice. -/
structure Telegram where
  mark : StartMark
  dst : Byte
  src : Byte
  kind : Byte
  body : List Byte
  deriving DecidableEq, Repr

/-- The group that follows the second check byte and so ends a telegram (R2): a fill group or a
mark. A mark that begins a telegram leaves the receiver in HEADER; a LINE RESET mark is an arrival
of its own after the telegram. -/
inductive TelegramEnd
  | fill
  | mark (m : Mark)
  deriving DecidableEq, Repr

/-- What varies in the header of a floor telegram addressed to the SRC-4. -/
structure FloorHead where
  src : Byte
  ends : TelegramEnd := .fill
  deriving DecidableEq, Repr

/-- What varies in the header of a management telegram, and its tag byte. The destination is not
examined (R166). -/
structure MillHead where
  dst : Byte
  src : Byte
  tag : Byte
  ends : TelegramEnd := .fill
  deriving DecidableEq, Repr

/-- What the floor port may receive as an arrival: a telegram, or a LINE RESET mark. -/
inductive FloorUnit
  | telegram (t : Telegram) (ends : TelegramEnd)
  | lineReset
  deriving DecidableEq, Repr

/-- The commands, one constructor for each row of the table, in the table's order.

A floor telegram row carries its source and its whole body. A READ row carries the bytes of the
body after the item code, a COMMIT row those after the target code, every other management row
those after the tag; so a body of a wrong length, or a field without meaning, is a value of the
operand like any other. Rows that name no kind carry the whole telegram. -/
inductive Instr
  /-- RSTN is held low and released (R11). -/
  | powerOnReset
  /-- A LINE RESET mark arrives at the mill port (R10). -/
  | lineReset
  /-- Code groups arrive at a port and end in a discard (R3). -/
  | telegramDiscarded (port : Port) (groups : List Group)
  /-- A floor PASS telegram, or a STATION telegram to 255 that is not the part's (R6). -/
  | floorThroughTraffic (t : Telegram) (ends : TelegramEnd)
  /-- A floor arrival that routing ignores (R6). -/
  | floorLocalTraffic (u : FloorUnit)
  /-- A floor telegram to 255 of a kind unknown for its sender (R7). -/
  | unknownKind (h : FloorHead) (kind : Byte) (body : List Byte)
  | sectionReport (h : FloorHead) (body : List Byte)
  | deliveryReport (h : FloorHead) (body : List Byte)
  | carriageReport (h : FloorHead) (body : List Byte)
  | stepReport (h : FloorHead) (body : List Byte)
  | resetReport (h : FloorHead) (body : List Byte)
  /-- A mill STATION telegram to a station of the part (R9). -/
  | notPassable (t : Telegram) (ends : TelegramEnd)
  /-- A mill PASS telegram, or a STATION telegram to a station that is not the part's (R8). -/
  | millThroughTraffic (t : Telegram) (ends : TelegramEnd)
  /-- A PART telegram of no management kind, or one that no other row names (R166). -/
  | badKind (t : Telegram) (ends : TelegramEnd)
  | readRowTable (h : MillHead) (rest : List Byte)
  | readFrame (h : MillHead) (rest : List Byte)
  | readStepWords (h : MillHead) (rest : List Byte)
  | readStationRecord (h : MillHead) (rest : List Byte)
  | readSpindleRecords (h : MillHead) (rest : List Byte)
  | readBayRecords (h : MillHead) (rest : List Byte)
  | readCarriageRecord (h : MillHead) (rest : List Byte)
  | readChannel (h : MillHead) (rest : List Byte)
  | readDoffQueue (h : MillHead) (rest : List Byte)
  | readCallList (h : MillHead) (rest : List Byte)
  | readShiftRecord (h : MillHead) (rest : List Byte)
  | readNoticeState (h : MillHead) (rest : List Byte)
  | readPortRecords (h : MillHead) (rest : List Byte)
  | readSettings (h : MillHead) (rest : List Byte)
  | stageClear (h : MillHead) (rest : List Byte)
  | stage (h : MillHead) (rest : List Byte)
  | commitRow (h : MillHead) (rest : List Byte)
  | commitFrame (h : MillHead) (rest : List Byte)
  | commitSteps (h : MillHead) (rest : List Byte)
  | clearChanges (h : MillHead) (rest : List Byte)
  | ackNotices (h : MillHead) (rest : List Byte)
  | stationReset (h : MillHead) (rest : List Byte)
  | stationDisable (h : MillHead) (rest : List Byte)
  | spindleRelease (h : MillHead) (rest : List Byte)
  | doffNow (h : MillHead) (rest : List Byte)
  | startSequence (h : MillHead) (rest : List Byte)
  | haltSequence (h : MillHead) (rest : List Byte)
  | clearEnding (h : MillHead) (rest : List Byte)
  | shiftClose (h : MillHead) (rest : List Byte)
  | saveSettings (h : MillHead) (rest : List Byte)
  /-- The save in flight reaches its completion (R177). -/
  | saveCompletion
  | partReset (h : MillHead) (rest : List Byte)
  /-- A port's transmitter finishes the telegram it is sending (R14). -/
  | telegramSent (port : Port)
  /-- The floor transmitter finishes a PIECE ORDER (R88). -/
  | pieceOrderCompletion
  /-- The floor transmitter finishes a STEP COMMAND (R108). -/
  | stepCommandCompletion
  /-- The floor transmitter finishes a RESET (R27). -/
  | resetCompletion
  /-- The silence timer of the station at an address expires (R22). -/
  | silenceTimerExpiry (address : Byte)
  /-- The reset wait of the station at an address expires (R28). -/
  | resetWaitExpiry (address : Byte)
  /-- The piecing timer of the carriage of a frame and side expires (R92). -/
  | piecingTimerExpiry (frame : FrameNo) (side : Side)
  /-- The park timer of the carriage of a frame and side expires (R93). -/
  | parkTimerExpiry (frame : FrameNo) (side : Side)
  /-- The step timer of a channel expires (R117). -/
  | stepTimerExpiry (channel : ChannelNo)
  /-- The second timer expires (R157). -/
  | secondTimerExpiry
  /-- The moderation timer expires (R175). -/
  | moderationTimerExpiry
  deriving DecidableEq, Repr

end Sys2Proof
end

