-- ==== Sys2Proof/Machine/Bytes.lean ====
section
/-! DEFINITION. Byte order, saturation, and fixed-length tables: the helpers that the rest of the
machine is written with. -/

namespace Sys2Proof.Machine

/-- The two bytes of a field, most significant first (00_scope 0.6). -/
def halfBytes (x : Half) : List Byte := [x.extractLsb' 8 8, x.extractLsb' 0 8]

/-- The field that two bytes, most significant first, give. -/
def half (hi lo : Byte) : Half := hi ++ lo

/-- `n` bytes of a number, most significant first; bits above them are not sent. -/
def bytesOf : Nat → Nat → List Byte
  | 0, _ => []
  | n + 1, x => BitVec.ofNat 8 (x / 256 ^ n) :: bytesOf n x

/-- A number given in `n` bytes, held at the largest value of those bytes (R181). -/
def heldBytes (n x : Nat) : List Byte := bytesOf n (min x (256 ^ n - 1))

/-- The byte of a flag: 1 or 0. -/
def flagByte (b : Bool) : Byte := if b then 1 else 0

/-- The byte at a place of a body; 0 beyond its end. -/
def byteAt (bs : List Byte) (i : Nat) : Byte := bs.getD i 0

/-- The two-byte field at a place of a body. -/
def halfAt (bs : List Byte) (i : Nat) : Half := half (byteAt bs i) (byteAt bs (i + 1))

/-- Saturating addition: a count that would pass its largest value holds at it (00_scope 0.6). -/
def satAdd {w : Nat} (x : BitVec w) (n : Nat) : BitVec w :=
  BitVec.ofNat w (min (x.toNat + n) (2 ^ w - 1))

/-- A fixed-length table with one entry replaced. -/
def putAt {α : Type} {n : Nat} (v : Vector α n) (i : Fin n) (x : α) : Vector α n :=
  v.set i.val x i.isLt

/-- A fixed-length table with the entry at a number replaced; a number beyond it replaces nothing. -/
def putNat {α : Type} {n : Nat} (v : Vector α n) (i : Nat) (x : α) : Vector α n :=
  ⟨⟨v.toList.set i x⟩, by simp⟩

/-- Every entry of a table changed by `f`. -/
def mapAll {α β : Type} {n : Nat} (f : α → β) (v : Vector α n) : Vector β n :=
  ⟨⟨v.toList.map f⟩, by simp⟩

/-- The first `k` entries of a table changed by `f`. -/
def mapFirst {α : Type} {n : Nat} (k : Nat) (f : α → α) (v : Vector α n) : Vector α n :=
  ⟨⟨(v.toList.take k).map f ++ v.toList.drop k⟩, by simp; omega⟩

/-- Consecutive entries of a table replaced from a place on. -/
def putRun {α : Type} {n : Nat} : Vector α n → Nat → List α → Vector α n
  | v, _, [] => v
  | v, i, x :: xs => putRun (putNat v i x) (i + 1) xs

/-- The numbers, from `k` on, of the entries of a list that satisfy `p`, ascending. -/
def placesFrom {α : Type} (p : α → Bool) : Nat → List α → List Nat
  | _, [] => []
  | k, x :: xs => if p x then k :: placesFrom p (k + 1) xs else placesFrom p (k + 1) xs

/-- `k`, then `k + 1`, and so on, `n` numbers. -/
def numbersFrom : Nat → Nat → List Nat
  | _, 0 => []
  | k, n + 1 => k :: numbersFrom (k + 1) n

/-- A list arranged by a code: the code's digits say which of the items left comes next. -/
def arrangeBy {α : Type} : Nat → Nat → List α → List α
  | 0, _, xs => xs
  | _, _, [] => []
  | k + 1, code, x :: xs =>
    let l := x :: xs
    l.getD (code % l.length) x :: arrangeBy k (code / l.length) (l.eraseIdx (code % l.length))

/-- A list of at most four items in one of its 24 arrangements. -/
def arrange {α : Type} (code : Fin 24) (xs : List α) : List α := arrangeBy xs.length code.val xs

/-- The four frames in ascending number. -/
def allFrames : List FrameNo := [0, 1, 2, 3]

/-- A byte that names a frame, if it is at most 3. -/
def frameNo? (b : Byte) : Option FrameNo := if h : b.toNat < 4 then some ⟨b.toNat, h⟩ else none

/-- A byte that names a channel, if it is at most 4. -/
def channelNo? (b : Byte) : Option ChannelNo := if h : b.toNat < 5 then some ⟨b.toNat, h⟩ else none

/-- A byte that names a side (R180: 0 A, 1 B). -/
def side? (b : Byte) : Option Side := if b = 0 then some .a else if b = 1 then some .b else none

/-- The number of a side: 0 for A, 1 for B. -/
def sideNo : Side → Nat
  | .a => 0
  | .b => 1

/-- The channel of a frame (R101). -/
def frameChannel (f : FrameNo) : ChannelNo := ⟨f.val, by omega⟩

/-- The roving train's channel (R101). -/
def trainChannel : ChannelNo := 4

/-- The frame of a channel, none for the train channel (R101). -/
def channelFrame (ch : ChannelNo) : Option FrameNo :=
  if h : ch.val < 4 then some ⟨ch.val, h⟩ else none

end Sys2Proof.Machine
end

