-- ==== Sys2Proof/Machine/Line.lean ====
section
/-! DEFINITION. The frame line: code groups, marks, the check, and the receiver of a port
(R1 to R4, 11.1). -/

namespace Sys2Proof.Machine

/-- The four mark groups (R1, 11.1). -/
inductive MarkGroup
  | k1
  | k2
  | k3
  | k4
  deriving DecidableEq, Repr

/-- The four classes of code group (R1). -/
inductive GroupClass
  | data (nibble : BitVec 4)
  | fill
  | mark (k : MarkGroup)
  | invalid
  deriving DecidableEq, Repr

/-- The class of each of the 32 codes (R1, 11.1). -/
def classify (g : Group) : GroupClass :=
  match g with
  | 0x1E#5 => .data 0x0
  | 0x09#5 => .data 0x1
  | 0x14#5 => .data 0x2
  | 0x15#5 => .data 0x3
  | 0x0A#5 => .data 0x4
  | 0x0B#5 => .data 0x5
  | 0x0E#5 => .data 0x6
  | 0x0F#5 => .data 0x7
  | 0x12#5 => .data 0x8
  | 0x13#5 => .data 0x9
  | 0x16#5 => .data 0xA
  | 0x17#5 => .data 0xB
  | 0x1A#5 => .data 0xC
  | 0x1B#5 => .data 0xD
  | 0x1C#5 => .data 0xE
  | 0x1D#5 => .data 0xF
  | 0x1F#5 => .fill
  | 0x18#5 => .mark .k1
  | 0x11#5 => .mark .k2
  | 0x07#5 => .mark .k3
  | 0x0D#5 => .mark .k4
  | _ => .invalid

/-- The code of a nibble (11.1). -/
def dataGroup (n : BitVec 4) : Group :=
  match n with
  | 0x0#4 => 0x1E
  | 0x1#4 => 0x09
  | 0x2#4 => 0x14
  | 0x3#4 => 0x15
  | 0x4#4 => 0x0A
  | 0x5#4 => 0x0B
  | 0x6#4 => 0x0E
  | 0x7#4 => 0x0F
  | 0x8#4 => 0x12
  | 0x9#4 => 0x13
  | 0xA#4 => 0x16
  | 0xB#4 => 0x17
  | 0xC#4 => 0x1A
  | 0xD#4 => 0x1B
  | 0xE#4 => 0x1C
  | _ => 0x1D

/-- The fill group (11.1). -/
def fillGroup : Group := 0x1F

/-- The code of a mark group (11.1). -/
def markGroup : MarkGroup → Group
  | .k1 => 0x18
  | .k2 => 0x11
  | .k3 => 0x07
  | .k4 => 0x0D

/-- The four mark groups of each mark, in order (11.1). -/
def markRun : Mark → List MarkGroup
  | .start .station => [.k1, .k2, .k1, .k3]
  | .start .part => [.k1, .k2, .k1, .k4]
  | .start .pass => [.k1, .k3, .k1, .k2]
  | .lineReset => [.k4, .k4, .k4, .k4]

/-- The mark that a run of four mark groups is, if it is one (R1). -/
def runMark? : List MarkGroup → Option Mark
  | [.k1, .k2, .k1, .k3] => some (.start .station)
  | [.k1, .k2, .k1, .k4] => some (.start .part)
  | [.k1, .k3, .k1, .k2] => some (.start .pass)
  | [.k4, .k4, .k4, .k4] => some .lineReset
  | _ => none

/-- The groups of a mark on the line. -/
def markGroups (m : Mark) : List Group := (markRun m).map markGroup

/-! ### The check (R4) -/

/-- One bit of a byte taken into the check register: polynomial x^16+x^12+x^5+1, not reflected. -/
def checkBit (r : BitVec 16) (bit : Bool) : BitVec 16 :=
  if r.msb ^^ bit then (r <<< 1) ^^^ 0x1021#16 else r <<< 1

/-- A byte taken into the check register, most significant bit first. -/
def checkByte (r : BitVec 16) (b : Byte) : BitVec 16 :=
  [b.getLsbD 7, b.getLsbD 6, b.getLsbD 5, b.getLsbD 4,
    b.getLsbD 3, b.getLsbD 2, b.getLsbD 1, b.getLsbD 0].foldl checkBit r

/-- The check over bytes: the register begins at FFFFh and is not inverted at the end (R4). -/
def checkOf (bs : List Byte) : BitVec 16 := bs.foldl checkByte 0xFFFF

/-! ### A telegram on the line (1.3) -/

/-- Header and body: the bytes the check is formed over (R4). -/
def Telegram.checkedBytes (t : Telegram) : List Byte :=
  [t.dst, t.src, t.kind, BitVec.ofNat 8 t.body.length] ++ t.body

/-- The bytes of a telegram after its mark: header, body and check, the check high byte first. -/
def Telegram.lineBytes (t : Telegram) : List Byte :=
  Telegram.checkedBytes t ++ halfBytes (checkOf (Telegram.checkedBytes t))

/-- The two data groups of a byte, the high nibble first (11.1). -/
def byteGroups (b : Byte) : List Group :=
  [dataGroup (b.extractLsb' 4 4), dataGroup (b.extractLsb' 0 4)]

/-- The groups of a telegram after its mark. -/
def Telegram.dataGroups (t : Telegram) : List Group := (Telegram.lineBytes t).flatMap byteGroups

/-- The groups of a whole telegram, its mark first. -/
def Telegram.groups (t : Telegram) : List Group := markGroups (.start t.mark) ++ Telegram.dataGroups t

/-- The groups that end a telegram (R2). -/
def endGroups : TelegramEnd → List Group
  | .fill => [fillGroup]
  | .mark m => markGroups m

/-! ### The receiver (R2, R3) -/

/-- The four receive states (R2). -/
inductive RxState
  | idle
  | header
  | body
  | check
  deriving DecidableEq, Repr

/-- A port's receiver: its receive state; the mark, whole bytes and high nibble of the telegram in
reception; and the mark groups of a run not yet four long. -/
structure Receiver where
  state : RxState
  mark : StartMark
  bytes : List Byte
  high : Option (BitVec 4)
  run : List MarkGroup
  deriving DecidableEq, Repr

/-- A receiver in IDLE, as both resets leave it (R10, R11). -/
def Receiver.idle : Receiver := ⟨.idle, .station, [], none, []⟩

/-- A receiver in HEADER for a new telegram under a mark (R2). -/
def Receiver.begun (m : StartMark) : Receiver := ⟨.header, m, [], none, []⟩

/-- What a group brings about at a port: a telegram in reception is discarded (R3, R4), a telegram
has ended with its check right, or a LINE RESET mark is an arrival. -/
inductive RxEvent
  | discarded
  | telegram (t : Telegram)
  | lineReset
  deriving DecidableEq, Repr

/-- The value of the length byte, once received. -/
def Receiver.length (r : Receiver) : Nat := (byteAt r.bytes 3).toNat

/-- Both check bytes are complete (R2). -/
def Receiver.complete (r : Receiver) : Bool :=
  r.state == .check && r.high.isNone && r.bytes.length == 4 + r.length + 2

/-- The end of a telegram whose check bytes are complete: the check is compared (R4). -/
def Receiver.ended (r : Receiver) : RxEvent :=
  let n := 4 + r.length
  if checkOf (r.bytes.take n) = halfAt r.bytes n then
    .telegram ⟨r.mark, byteAt r.bytes 0, byteAt r.bytes 1, byteAt r.bytes 2, (r.bytes.take n).drop 4⟩
  else .discarded

/-- A byte completed in HEADER, BODY or CHECK (R2; the length test is R3's first case). -/
def Receiver.onByte (r : Receiver) (b : Byte) : Receiver × List RxEvent :=
  let bytes := r.bytes ++ [b]
  match r.state with
  | .idle => (.idle, [])
  | .header =>
    if bytes.length < 4 then (⟨.header, r.mark, bytes, none, []⟩, [])
    else if 60 < b.toNat then (.idle, [.discarded])
    else (⟨if b = 0 then .check else .body, r.mark, bytes, none, []⟩, [])
  | .body => (⟨if bytes.length = 4 + r.length then .check else .body, r.mark, bytes, none, []⟩, [])
  | .check => (⟨.check, r.mark, bytes, none, []⟩, [])

/-- A data group (R2); one after the second check byte discards the telegram (R3). -/
def Receiver.onData (r : Receiver) (n : BitVec 4) : Receiver × List RxEvent :=
  match r.state with
  | .idle => (.idle, [])
  | _ =>
    if r.complete then (.idle, [.discarded])
    else match r.high with
      | none => ({ r with high := some n }, [])
      | some h => r.onByte (h ++ n)

/-- A fill group: it ends a complete telegram, and discards a short one (R2, R3). -/
def Receiver.onFill (r : Receiver) : Receiver × List RxEvent :=
  match r.state with
  | .idle => (.idle, [])
  | _ => (.idle, [if r.complete then r.ended else .discarded])

/-- What the mark leaves in reception brings about: its end if complete, else its discard. -/
def Receiver.cutOff (r : Receiver) : List RxEvent :=
  match r.state with
  | .idle => []
  | _ => [if r.complete then r.ended else .discarded]

/-- A mark (R2, R3): a start mark begins a new telegram, a LINE RESET mark is an arrival. -/
def Receiver.onMark (r : Receiver) : Mark → Receiver × List RxEvent
  | .start m => (.begun m, r.cutOff)
  | .lineReset => (.idle, r.cutOff ++ [.lineReset])

/-- An invalid group or an invalid run of mark groups (R2, R3). -/
def Receiver.onInvalid (r : Receiver) : Receiver × List RxEvent :=
  match r.state with
  | .idle => (.idle, [])
  | _ => (.idle, [.discarded])

/-- A group that is no mark group, with no run of mark groups open before it. -/
def Receiver.onPlain (r : Receiver) : GroupClass → Receiver × List RxEvent
  | .data n => r.onData n
  | .fill => r.onFill
  | .mark _ => (r, [])
  | .invalid => r.onInvalid

/-- One group received (R1, R2). Mark groups are taken four at a time; a run of fewer that a group
of another class ends is invalid, and that group is then taken in the state this leaves. -/
def Receiver.take (r : Receiver) (g : Group) : Receiver × List RxEvent :=
  match classify g with
  | .mark k =>
    let run := r.run ++ [k]
    if run.length < 4 then ({ r with run := run }, [])
    else match runMark? run with
      | some m => { r with run := [] }.onMark m
      | none => { r with run := [] }.onInvalid
  | c =>
    if r.run.isEmpty then r.onPlain c
    else
      let (r1, e1) := { r with run := [] }.onInvalid
      let (r2, e2) := r1.onPlain c
      (r2, e1 ++ e2)

/-- A run of groups received: the receiver after them and the events in order. -/
def Receiver.takeAll : Receiver → List Group → Receiver × List RxEvent
  | r, [] => (r, [])
  | r, g :: gs =>
    let (r1, e1) := r.take g
    let (r2, e2) := Receiver.takeAll r1 gs
    (r2, e1 ++ e2)

/-- Where the group that ends a telegram leaves the receiver: HEADER of a new telegram after the mark
of one, else IDLE (R2). -/
def endReceiver : TelegramEnd → Receiver
  | .fill => .idle
  | .mark (.start m) => .begun m
  | .mark .lineReset => .idle

/-- What stands on the line before a mark: a fill group when mark groups of an unfinished run came
last, since a receiver reads a mark from the first mark group after a group of another class (R1). -/
def leadIn (r : Receiver) : List Group := if r.run.isEmpty then [] else [fillGroup]

/-- The groups that bring a mark to a receiver. -/
def markArrival (r : Receiver) (m : Mark) : List Group := leadIn r ++ markGroups m

/-- The groups that bring a telegram to a receiver: its mark is left out when it has already been
received as the end of the telegram before (R2, the row CHECK to HEADER). -/
def arrivalGroups (r : Receiver) (t : Telegram) (e : TelegramEnd) : List Group :=
  (if r = .begun t.mark then [] else markArrival r (.start t.mark)) ++ Telegram.dataGroups t ++
    endGroups e

end Sys2Proof.Machine
end

