-- ==== Sys2Proof/Machine/State.lean ====
section
/-! DEFINITION. The state of the SRC-4, block by block (00_scope 0.4), the reasons a step can stop,
and the state after reset. Plain data throughout. -/

namespace Sys2Proof.Machine

/-! ### Timers -/

/-- A timer: stopped, or running with the time left in units of 10 ms (log 2), or running without
ever expiring (a park time of 255, R93). -/
inductive Timer
  | stopped
  | running (left : Nat)
  | endless
  deriving DecidableEq, Repr

/-! ### Line Interface (chapter 1) -/

/-- A creel bay: frame, side and index (R61, R140). -/
structure BayId where
  frame : FrameNo
  side : Side
  index : Fin 16
  deriving DecidableEq, Repr

/-- What an order carries (R12, R180). A PIECE ORDER also keeps the carriage it was issued to. -/
inductive OrderBody
  | pieceOrder (frame : FrameNo) (side : Side) (position attempt : Nat)
  | parkOrder
  | stepCommand (channel : ChannelNo) (action parameter : Byte) (bay : Option BayId)
  | reset
  deriving DecidableEq, Repr

/-- An order to a floor station. The number tells it from every other order, so that a completion
can be matched to the order it completes (R27, R88, R108; log 10). -/
structure Order where
  number : Nat
  station : Byte
  body : OrderBody
  deriving DecidableEq, Repr

/-- An entry of the floor-bound forward queue: a telegram as received, or a bare LINE RESET mark
(R10, R12). -/
inductive Forward
  | telegram (t : Telegram)
  | lineReset
  deriving DecidableEq, Repr

/-- What the floor transmitter is sending. An order begun before a line reset is not reported
(R10, R14). -/
inductive FloorSending
  | order (o : Order) (reported : Bool)
  | forward (f : Forward)
  deriving DecidableEq, Repr

/-- What the mill transmitter is sending (R14). -/
inductive MillSending
  | reply (t : Telegram)
  | forward (t : Telegram)
  deriving DecidableEq, Repr

/-- A port record: three saturating counts (R5). -/
structure PortRecord where
  received : BitVec 32
  checkErrors : BitVec 32
  forwardsDropped : BitVec 32
  deriving DecidableEq, Repr

/-- A port record with every count zero (R5, R10, R11). -/
def PortRecord.zero : PortRecord := ⟨0, 0, 0⟩

/-- The Line Interface: receivers, queues, transmitters, port records. A transmitter that holds
nothing sends fill. -/
structure LineInterface where
  floorRx : Receiver
  millRx : Receiver
  floorOrders : List Order
  millReplies : List Telegram
  floorForward : List Forward
  millForward : List Telegram
  floorTx : Option FloorSending
  millTx : Option MillSending
  floorRecord : PortRecord
  millRecord : PortRecord
  deriving DecidableEq, Repr

/-! ### Station Table (chapter 2) -/

/-- The roles of a station (R17, R19). -/
inductive Role
  | drive
  | strip
  | carriage
  | train
  deriving DecidableEq, Repr

/-- The link states (R20). -/
inductive LinkState
  | absent
  | active
  | silent
  | resetting
  | disabled
  deriving DecidableEq, Repr

/-- The change flags of a station record (R23). -/
structure ChangeFlags where
  presence : Bool
  link : Bool
  resetDone : Bool
  errors : Bool
  deriving DecidableEq, Repr

/-- The change flags all clear. -/
def ChangeFlags.clear : ChangeFlags := ⟨false, false, false, false⟩

/-- A station record (R19). `resetOrder` is the number of the RESET most recently queued for the
station (R27 step 3; log 10). -/
structure StationRecord where
  address : Byte
  role : Role
  frame : Option FrameNo
  side : Option Side
  link : LinkState
  flags : ChangeFlags
  errorCount : BitVec 16
  timer : Timer
  resetOrder : Option Nat
  deriving DecidableEq, Repr

/-! ### Frame Monitor and Delivery Integrator (chapters 2 and 3) -/

/-- The frame states (R31). -/
inductive FrameState
  | absent
  | standing
  | spinning
  | doffing
  deriving DecidableEq, Repr

/-- A frame's state and drive-running flag (R31, R32). -/
structure FrameItem where
  state : FrameState
  running : Bool
  deriving DecidableEq, Repr

/-- A frame's delivery items (R37). -/
structure DeliveryItem where
  odometer : Mm
  remainder : Fin 1000
  reference : Option Half
  lastSpeed : Option Half
  deriving DecidableEq, Repr

/-! ### Spindle Table (chapter 4) -/

/-- The spindle states (R64). -/
inductive SpindleState
  | unseen
  | running
  | broken
  | queued
  | piecing
  | starved
  | locked
  deriving DecidableEq, Repr

/-- A spindle record (R63). -/
structure SpindleRecord where
  state : SpindleState
  runMark : Option Mm
  pieceMark : Mm
  cop : BitVec 32
  attempts : BitVec 3
  rebreaks : BitVec 3
  shiftBreaks : BitVec 8
  deriving DecidableEq, Repr

/-- The values a power-on reset or a clearing gives a spindle record (R63, R78, R80). -/
def SpindleRecord.fresh : SpindleRecord := ⟨.unseen, none, 0, 0, 0, 0, 0⟩

/-- A frame's 1,536 spindle records and its running count (R62). -/
structure FrameSpindles where
  records : Vector SpindleRecord 1536
  running : Nat
  deriving DecidableEq, Repr

/-- A frame's spindles as a power-on reset or a clearing leaves them (R78, R80). -/
def FrameSpindles.fresh : FrameSpindles := ⟨Vector.replicate 1536 .fresh, 0⟩

/-! ### Piecing Dispatcher (chapter 5) -/

/-- An entry of a work list (R81). -/
structure ListEntry where
  position : Nat
  deferred : Bool
  deriving DecidableEq, Repr

/-- The phase of an in-hand slot (R81). -/
inductive SlotPhase
  | waiting
  | sent
  deriving DecidableEq, Repr

/-- An in-hand slot that holds a spindle (R81); `order` is the PIECE ORDER of its issue (R88). -/
structure InHand where
  position : Nat
  attempt : Nat
  phase : SlotPhase
  order : Nat
  deriving DecidableEq, Repr

/-- The directions of a carriage (R81). -/
inductive Direction
  | up
  | down
  deriving DecidableEq, Repr

/-- The carriage states a report names (R81, R89). -/
inductive CarriageState
  | ready
  | travelling
  | working
  | parked
  | fault
  deriving DecidableEq, Repr

/-- A carriage record (R81). -/
structure CarriageRecord where
  list : List ListEntry
  inHand : Option InHand
  position : Option Nat
  direction : Direction
  lastState : Option CarriageState
  ready : Bool
  parked : Bool
  piecing : Timer
  park : Timer
  deriving DecidableEq, Repr

/-- The values of R81 after a reset or a clearing. -/
def CarriageRecord.fresh : CarriageRecord :=
  ⟨[], none, none, .up, none, false, false, .stopped, .stopped⟩

/-! ### Sequence Engine (chapter 6) -/

/-- A step word of 8 bytes (R99, 11.3). -/
structure StepWord where
  kind : BitVec 4
  flags : BitVec 4
  target : Byte
  argument : Half
  quantity : Half
  limit : Half
  deriving DecidableEq, Repr

/-- The END word, all bytes 0 (R99, R178). -/
def StepWord.endWord : StepWord := ⟨0, 0, 0, 0, 0, 0⟩

/-- The channel states (R101). -/
inductive ChannelState
  | idle
  | running
  | ended
  deriving DecidableEq, Repr

/-- The start causes (R101). -/
inductive StartCause
  | doff
  | exchange
  | management
  deriving DecidableEq, Repr

/-- The step phases (R101). -/
inductive StepPhase
  | waiting
  | sent
  | timing
  | watching
  deriving DecidableEq, Repr

/-- The end conditions (R119). -/
inductive EndCondition
  | normal
  | short
  | refused
  | timeout
  | sequenceCheck
  | stationLost
  | halted
  deriving DecidableEq, Repr

/-- The results of a step report (R114). -/
inductive StepResult
  | done
  | doneAdvance
  | refused
  deriving DecidableEq, Repr

/-- The last report matched in a sequence (R119). -/
structure LastReport where
  result : StepResult
  quantity : Half
  deriving DecidableEq, Repr

/-- An ending record (R119). Residual time is in 0.1 s. -/
structure EndingRecord where
  condition : EndCondition
  lastStep : Nat
  nextStep : Nat
  lastReport : Option LastReport
  residual : Option Nat
  noteSeen : Bool
  noteAddress : Option Nat
  cause : Option StartCause
  deriving DecidableEq, Repr

/-- A channel record (R101). `order` is the STEP COMMAND that the step in hand placed (R108);
`lastReport` and `residual` are what the ending record will take (R119; log 16). -/
structure Channel where
  state : ChannelState
  cause : Option StartCause
  address : Option Nat
  phase : Option StepPhase
  timer : Timer
  stack : Vector Nat 4
  pointer : Fin 4
  runCount : Nat
  jump : Bool
  noteSeen : Bool
  noteAddress : Option Nat
  ending : Option EndingRecord
  lastReport : Option LastReport
  residual : Option Nat
  order : Option Nat
  deriving DecidableEq, Repr

/-- The values of R101 after a reset. -/
def Channel.fresh : Channel :=
  ⟨.idle, none, none, none, .stopped, Vector.replicate 4 0, 0, 0, false, false, none, none, none,
    none, none⟩

/-- The Sequence Engine: step store and channels (R99, R101). -/
structure SequenceEngine where
  steps : Vector StepWord 512
  channels : Vector Channel 5
  deriving DecidableEq, Repr

/-! ### Doff Scheduler and Roving Controller (chapters 7 and 8) -/

/-- The Doff Scheduler (R125). -/
structure DoffScheduler where
  queue : List FrameNo
  marks : Vector Mm 4
  permits : Nat
  deriving DecidableEq, Repr

/-- The call classes of a bay (R140). -/
inductive CallClass
  | none
  | planned
  | urgent
  | serving
  deriving DecidableEq, Repr

/-- A bay record (R140). -/
structure BayRecord where
  mark : Mm
  cls : CallClass
  stamp : Option (BitVec 32)
  deriving DecidableEq, Repr

/-- A bay record after a power-on reset (R140). -/
def BayRecord.fresh : BayRecord := ⟨0, .none, none⟩

/-- The current bay with its marked flag (R141). -/
structure CurrentBay where
  bay : BayId
  marked : Bool
  deriving DecidableEq, Repr

/-- The Roving Controller (R140, R141). -/
structure RovingController where
  bays : Vector BayRecord 128
  calls : List BayId
  counter : BitVec 32
  current : Option CurrentBay
  deriving DecidableEq, Repr

/-! ### Shift Counters (chapter 9) -/

/-- The three figures of a frame entry (R155). -/
structure Figures where
  mass : BitVec 32
  efficiency : Half
  breakRate : Half
  deriving DecidableEq, Repr

/-- A frame entry of a shift record (R155). -/
structure ShiftEntry where
  spindleLength : BitVec 48
  advance : BitVec 40
  massUnits : BitVec 64
  spinSeconds : BitVec 32
  breaks : BitVec 32
  pieced : BitVec 32
  failed : BitVec 32
  lockouts : BitVec 32
  doffs : BitVec 16
  exchanges : BitVec 16
  figures : Option Figures
  deriving DecidableEq, Repr

/-- A frame entry with every count 0 and the figures absent (R159, R165). -/
def ShiftEntry.fresh : ShiftEntry := ⟨0, 0, 0, 0, 0, 0, 0, 0, 0, 0, none⟩

/-- The record states (R155). -/
inductive RecordState
  | opened
  | closed
  deriving DecidableEq, Repr

/-- A shift record (R155). -/
structure ShiftRecord where
  number : Half
  openSeconds : BitVec 32
  state : RecordState
  entries : Vector ShiftEntry 4
  deriving DecidableEq, Repr

/-- A newly opened shift record (R159, R165). -/
def ShiftRecord.fresh (n : Half) : ShiftRecord := ⟨n, 0, .opened, Vector.replicate 4 .fresh⟩

/-- The Shift Counters: current record, history ring newest first, second timer (R155, R157, R163). -/
structure ShiftCounters where
  current : ShiftRecord
  history : List ShiftRecord
  second : Timer
  deriving DecidableEq, Repr

/-! ### Management Unit (chapter 10) -/

/-- The row table (R169). -/
structure RowTable where
  framesInUse : Byte
  permitLimit : Byte
  trainAddress : Byte
  moderation : Byte
  exchangeStart : Half
  enables : Byte
  silenceDrive : Byte
  silenceStrip : Byte
  silenceCarriage : Byte
  silenceTrain : Byte
  resetWait : Byte
  errorLimit : Byte
  deriving DecidableEq, Repr

/-- The row table's default (R178). -/
def RowTable.default : RowTable := ⟨0, 1, 0, 0, 0, 0xFF, 255, 255, 255, 255, 255, 0⟩

/-- A frame record (R170). -/
structure FrameRecord where
  drive : Byte
  stripA : Byte
  stripB : Byte
  carriageA : Byte
  carriageB : Byte
  spindles : Half
  pulseLength : Half
  maxPulses : Half
  draft : Half
  density : Half
  doffLength : Half
  rebreakLength : Byte
  rebreakLimit : Byte
  attemptLimit : Byte
  piecingTime : Byte
  parkTime : Byte
  bayFull : Half
  reserve : Half
  doffStart : Half
  deriving DecidableEq, Repr

/-- A frame record's default, every field 0 (R170, R178). -/
def FrameRecord.default : FrameRecord := ⟨0, 0, 0, 0, 0, 0, 0, 0, 0, 0, 0, 0, 0, 0, 0, 0, 0, 0, 0⟩

/-- A record of the settings store: its complement matches, or it does not (R176, R177). -/
inductive Stored (α : Type)
  | intact (value : α)
  | torn
  deriving DecidableEq, Repr

/-- The settings store (R176). -/
structure SettingsStore where
  row : Stored RowTable
  frames : Vector (Stored FrameRecord) 4
  words : Vector (Stored StepWord) 512
  deriving DecidableEq, Repr

/-- The store of a part that has never saved: no record matches its complement. DESIGN CHOICE, log 1. -/
def SettingsStore.blank : SettingsStore :=
  ⟨.torn, Vector.replicate 4 .torn, Vector.replicate 512 .torn⟩

/-- The save states (R177). -/
inductive SaveState
  | none
  | inFlight
  | complete
  | abandoned
  deriving DecidableEq, Repr

/-- The load result (R178). -/
structure LoadResult where
  rowFailed : Bool
  framesFailed : Vector Bool 4
  wordsFailed : Nat
  firstWord : Option Nat
  deriving DecidableEq, Repr

/-- The notice classes (R174). -/
inductive NoticeClass
  | stationChange
  | lockout
  | sequenceEnded
  | progress
  | rovingUrgent
  | odometerJump
  | settingsFault
  | forwardLoss
  deriving DecidableEq, Repr

/-- The Management Unit: the tables in force (the step store stands with the Sequence Engine), the
stage, the notice flags as class masks, the moderation timer (stopped is expired), the settings
store, the save state and the load result (R166 to R178). -/
structure ManagementUnit where
  row : RowTable
  frames : Vector FrameRecord 4
  stage : List Byte
  latched : Byte
  told : Byte
  moderation : Timer
  store : SettingsStore
  save : SaveState
  load : LoadResult
  deriving DecidableEq, Repr

end Sys2Proof.Machine

namespace Sys2Proof.Machine

/-- The state of the part: the eleven blocks of 00_scope 0.4, then the model's own three fields.
`orders` numbers the orders (log 10), `choices` counts the free values taken (log 3), `pending` is
the queue of commands that wait, first in, first out. -/
structure State where
  li : LineInterface
  st : List StationRecord
  fm : Vector FrameItem 4
  di : Vector DeliveryItem 4
  spt : Vector FrameSpindles 4
  pd : Vector CarriageRecord 8
  se : SequenceEngine
  ds : DoffScheduler
  rc : RovingController
  sc : ShiftCounters
  mu : ManagementUnit
  orders : Nat
  choices : Nat
  pending : List Instr
  deriving DecidableEq, Repr

/-- The reasons a step stops with a fault. There are none: the spec stops the part nowhere. -/
inductive Fault
  deriving DecidableEq, Repr

/-- The reasons a step is refused. -/
inductive Refusal
  /-- Raised by exec alone, for a command that has no meaning yet; safe. No arm raises it. -/
  | notModelled (mnemonic : String)
  deriving DecidableEq, Repr

/-- The NOTICE of SETTINGS FAULT that stands with the mill transmitter after reset: class 6 is
latched, enabled by the default row table and not told, the timer is expired and the queue has
room (R175, R178). -/
def resetNotice : Telegram := ⟨.part, 0, 255, 0x63, [0, 0x40, 0x40]⟩

/-- The machine right after a power-on reset whose settings store held no intact record (R11, R36,
R58, R78, R97, R124, R139, R154, R165, R178, R179; the store is a DESIGN CHOICE, log 1). -/
def State.reset : State where
  li :=
    { floorRx := .idle
      millRx := .idle
      floorOrders := []
      millReplies := []
      floorForward := []
      millForward := []
      floorTx := none
      millTx := some (.reply resetNotice)
      floorRecord := .zero
      millRecord := .zero }
  st := []
  fm := Vector.replicate 4 ⟨.absent, false⟩
  di := Vector.replicate 4 ⟨0, 0, none, none⟩
  spt := Vector.replicate 4 .fresh
  pd := Vector.replicate 8 .fresh
  se := ⟨Vector.replicate 512 .endWord, Vector.replicate 5 .fresh⟩
  ds := ⟨[], Vector.replicate 4 0, 0⟩
  rc := ⟨Vector.replicate 128 .fresh, [], 0, none⟩
  sc := ⟨.fresh 1, [], .running 100⟩
  mu :=
    { row := .default
      frames := Vector.replicate 4 .default
      stage := []
      latched := 0x40
      told := 0x40
      moderation := .stopped
      store := .blank
      save := .none
      load := ⟨true, Vector.replicate 4 true, 512, some 0⟩ }
  orders := 0
  choices := 0
  pending := []

end Sys2Proof.Machine
end

