-- ==== Sys2Proof/Machine/Operands.lean ====
section
/-! DEFINITION. The operand forms: kind codes, the bodies of telegrams (R180, 11.2), the tables as
staged and read (11.3) and their ranges (R169, R170). -/

namespace Sys2Proof.Machine

/-! ### Kind codes (11.2) -/

def kindSectionReport : Byte := 0x10
def kindDeliveryReport : Byte := 0x11
def kindCarriageReport : Byte := 0x12
def kindStepReport : Byte := 0x13
def kindResetReport : Byte := 0x14
def kindPieceOrder : Byte := 0x20
def kindParkOrder : Byte := 0x21
def kindStepCommand : Byte := 0x22
def kindReset : Byte := 0x23
def kindRead : Byte := 0x40
def kindStageClear : Byte := 0x41
def kindStage : Byte := 0x42
def kindCommit : Byte := 0x43
def kindClearChanges : Byte := 0x44
def kindAckNotices : Byte := 0x45
def kindStationReset : Byte := 0x46
def kindStationDisable : Byte := 0x47
def kindSpindleRelease : Byte := 0x48
def kindDoffNow : Byte := 0x49
def kindStartSequence : Byte := 0x4A
def kindHaltSequence : Byte := 0x4B
def kindClearEnding : Byte := 0x4C
def kindShiftClose : Byte := 0x4D
def kindSaveSettings : Byte := 0x4E
def kindPartReset : Byte := 0x4F
def kindAnswer : Byte := 0x60
def kindDone : Byte := 0x61
def kindRefused : Byte := 0x62
def kindNotice : Byte := 0x63

/-- The sixteen management kinds (11.2). -/
inductive MgmtKind
  | read
  | stageClear
  | stage
  | commit
  | clearChanges
  | ackNotices
  | stationReset
  | stationDisable
  | spindleRelease
  | doffNow
  | startSequence
  | haltSequence
  | clearEnding
  | shiftClose
  | saveSettings
  | partReset
  deriving DecidableEq, Repr

/-- The management kind of a code, if it is one (R166). -/
def mgmtKind? (k : Byte) : Option MgmtKind :=
  match k with
  | 0x40#8 => some .read
  | 0x41#8 => some .stageClear
  | 0x42#8 => some .stage
  | 0x43#8 => some .commit
  | 0x44#8 => some .clearChanges
  | 0x45#8 => some .ackNotices
  | 0x46#8 => some .stationReset
  | 0x47#8 => some .stationDisable
  | 0x48#8 => some .spindleRelease
  | 0x49#8 => some .doffNow
  | 0x4A#8 => some .startSequence
  | 0x4B#8 => some .haltSequence
  | 0x4C#8 => some .clearEnding
  | 0x4D#8 => some .shiftClose
  | 0x4E#8 => some .saveSettings
  | 0x4F#8 => some .partReset
  | _ => none

/-- The body length, tag included, is the one the kind requires (R166, R180). -/
def mgmtLengthOk (k : MgmtKind) (n : Nat) : Bool :=
  match k with
  | .read => n == 7
  | .stageClear => n == 1
  | .stage => 3 ≤ n && n ≤ 58
  | .commit => n == 6
  | .clearChanges => n == 3
  | .ackNotices => n == 2
  | .stationReset => n == 2
  | .stationDisable => n == 2
  | .spindleRelease => n == 4
  | .doffNow => n == 2
  | .startSequence => n == 4
  | .haltSequence => n == 2
  | .clearEnding => n == 2
  | .shiftClose => n == 1
  | .saveSettings => n == 1
  | .partReset => n == 1

/-- The refusal reasons (11.2). -/
inductive Reason
  | badKind
  | badLength
  | badField
  | badOffset
  | stageFull
  | stageShort
  | notInUse
  | busy
  | ended
  | notEnded
  | notRunning
  | frameRunning
  | inUse
  | limitInUse
  | duplicateAddress
  | notLocked
  | notPassable
  | storeBusy
  | doffing
  | pending
  | absent
  deriving DecidableEq, Repr

/-- The code of a refusal reason (11.2). -/
def reasonCode : Reason → Byte
  | .badKind => 1
  | .badLength => 2
  | .badField => 3
  | .badOffset => 4
  | .stageFull => 5
  | .stageShort => 6
  | .notInUse => 7
  | .busy => 8
  | .ended => 9
  | .notEnded => 10
  | .notRunning => 11
  | .frameRunning => 12
  | .inUse => 13
  | .limitInUse => 14
  | .duplicateAddress => 15
  | .notLocked => 16
  | .notPassable => 17
  | .storeBusy => 18
  | .doffing => 19
  | .pending => 20
  | .absent => 21

/-! ### Floor telegrams -/

/-- The floor kinds and the roles that may send them (R7). -/
def kindAllowed (k : Byte) (r : Role) : Bool :=
  match k with
  | 0x10#8 => r == .strip
  | 0x11#8 => r == .drive
  | 0x12#8 => r == .carriage
  | 0x13#8 => true
  | 0x14#8 => true
  | _ => false

/-- The four codes of a section report (R69). -/
inductive SpindleCode
  | yarn
  | down
  | braked
  | noRoving
  deriving DecidableEq, Repr

/-- A 2-bit code (R69). -/
def spindleCode (c : BitVec 2) : SpindleCode :=
  match c with
  | 0#2 => .yarn
  | 1#2 => .down
  | 2#2 => .braked
  | _ => .noRoving

/-- The four codes of a byte, the first in bits 7–6 (R180). -/
def byteCodes (b : Byte) : List SpindleCode :=
  [spindleCode (b.extractLsb' 6 2), spindleCode (b.extractLsb' 4 2),
    spindleCode (b.extractLsb' 2 2), spindleCode (b.extractLsb' 0 2)]

/-- A section report: section index and 24 codes in ascending index (R68, R180). -/
structure SectionBody where
  index : Nat
  codes : List SpindleCode
  deriving DecidableEq, Repr

/-- The section report a body is, if its length is right (R68). -/
def sectionBody? (bs : List Byte) : Option SectionBody :=
  if bs.length = 7 then some ⟨(byteAt bs 0).toNat, (bs.drop 1).flatMap byteCodes⟩ else none

/-- The drive states (R38). -/
inductive DriveState
  | stopped
  | running
  | slow
  | fault
  deriving DecidableEq, Repr

/-- A delivery report (R38). -/
structure DeliveryBody where
  count : Half
  drive : DriveState
  speed : Half
  deriving DecidableEq, Repr

def driveState? (b : Byte) : Option DriveState :=
  match b with
  | 0#8 => some .stopped
  | 1#8 => some .running
  | 2#8 => some .slow
  | 3#8 => some .fault
  | _ => none

/-- The delivery report a body is, if its length and drive state are right (R38, R180). -/
def delivery? (bs : List Byte) : Option DeliveryBody :=
  if bs.length = 5 then (driveState? (byteAt bs 2)).map fun d => ⟨halfAt bs 0, d, halfAt bs 3⟩
  else none

/-- The outcomes of a piecing (R90). -/
inductive PieceOutcome
  | pieced
  | notYet
  | noRoving
  | notPossible
  | failed
  deriving DecidableEq, Repr

/-- A carriage report (R89); the outcome with the position of the spindle it concerns. -/
structure CarriageBody where
  position : Nat
  direction : Direction
  state : CarriageState
  outcome : Option (PieceOutcome × Nat)
  deriving DecidableEq, Repr

def direction? (b : Byte) : Option Direction :=
  match b with
  | 0#8 => some .up
  | 1#8 => some .down
  | _ => none

def carriageState? (b : Byte) : Option CarriageState :=
  match b with
  | 0#8 => some .ready
  | 1#8 => some .travelling
  | 2#8 => some .working
  | 3#8 => some .parked
  | 4#8 => some .fault
  | _ => none

/-- The outcome code: outside none when it has no meaning, inside none when there is no outcome. -/
def outcome? (b : Byte) : Option (Option PieceOutcome) :=
  match b with
  | 0#8 => some none
  | 1#8 => some (some .pieced)
  | 2#8 => some (some .notYet)
  | 3#8 => some (some .noRoving)
  | 4#8 => some (some .notPossible)
  | 5#8 => some (some .failed)
  | _ => none

/-- The carriage report a body is, if its length and codes are right (R89, R180). Whether its
positions lie on the carriage's side is tested against the frame record by the owner. -/
def carriage? (bs : List Byte) : Option CarriageBody :=
  if bs.length = 7 then
    match direction? (byteAt bs 2), carriageState? (byteAt bs 3), outcome? (byteAt bs 4) with
    | some d, some c, some o =>
      some ⟨(halfAt bs 0).toNat, d, c, o.map fun x => (x, (halfAt bs 5).toNat)⟩
    | _, _, _ => none
  else none

/-- A step report (R114). -/
structure StepBody where
  result : StepResult
  quantity : Half
  echo : Byte
  deriving DecidableEq, Repr

def stepResult? (b : Byte) : Option StepResult :=
  match b with
  | 0#8 => some .done
  | 1#8 => some .doneAdvance
  | 2#8 => some .refused
  | _ => none

/-- The step report a body is, if its length and result are right (R114, R180). -/
def stepReport? (bs : List Byte) : Option StepBody :=
  if bs.length = 4 then (stepResult? (byteAt bs 0)).map fun r => ⟨r, halfAt bs 1, byteAt bs 3⟩
  else none

/-- The body of an order (R180). -/
def orderBytes : OrderBody → Byte × List Byte
  | .pieceOrder _ _ p n => (kindPieceOrder, bytesOf 2 p ++ bytesOf 1 n)
  | .parkOrder => (kindParkOrder, [])
  | .stepCommand ch a p none => (kindStepCommand, [a, p] ++ bytesOf 1 ch.val ++ [0, 0, 0, 0])
  | .stepCommand ch a p (some b) =>
    (kindStepCommand, [a, p] ++ bytesOf 1 ch.val ++ [1] ++ bytesOf 1 b.frame.val ++
      bytesOf 1 (sideNo b.side) ++ bytesOf 1 b.index.val)
  | .reset => (kindReset, [])

/-- The telegram of an order: STATION mark, source 255, the station as destination (R12). -/
def orderTelegram (o : Order) : Telegram :=
  ⟨.station, o.station, 255, (orderBytes o.body).1, (orderBytes o.body).2⟩

/-- The groups that the floor transmitter sends (R1, R14). -/
def floorLine : Option FloorSending → List Group
  | none => [fillGroup]
  | some (.order o _) => Telegram.groups (orderTelegram o) ++ [fillGroup]
  | some (.forward (.telegram t)) => Telegram.groups t ++ [fillGroup]
  | some (.forward .lineReset) => markGroups .lineReset ++ [fillGroup]

/-- The groups that the mill transmitter sends (R1, R14). -/
def millLine : Option MillSending → List Group
  | none => [fillGroup]
  | some (.reply t) => Telegram.groups t ++ [fillGroup]
  | some (.forward t) => Telegram.groups t ++ [fillGroup]

/-! ### Tables (11.3) -/

/-- The bytes of a step word (11.3). -/
def stepWordBytes (w : StepWord) : List Byte :=
  [w.kind ++ w.flags, w.target] ++ halfBytes w.argument ++ halfBytes w.quantity ++ halfBytes w.limit

/-- The step word of 8 bytes (11.3). -/
def stepWordOf (bs : List Byte) : StepWord where
  kind := (byteAt bs 0).extractLsb' 4 4
  flags := (byteAt bs 0).extractLsb' 0 4
  target := byteAt bs 1
  argument := halfAt bs 2
  quantity := halfAt bs 4
  limit := halfAt bs 6

/-- The bytes of the row table (11.3). -/
def rowTableBytes (r : RowTable) : List Byte :=
  [r.framesInUse, r.permitLimit, r.trainAddress, r.moderation] ++ halfBytes r.exchangeStart ++
    [r.enables, r.silenceDrive, r.silenceStrip, r.silenceCarriage, r.silenceTrain, r.resetWait,
      r.errorLimit, 0, 0, 0]

/-- The row table of 16 bytes (11.3). -/
def rowTableOf (bs : List Byte) : RowTable where
  framesInUse := byteAt bs 0
  permitLimit := byteAt bs 1
  trainAddress := byteAt bs 2
  moderation := byteAt bs 3
  exchangeStart := halfAt bs 4
  enables := byteAt bs 6
  silenceDrive := byteAt bs 7
  silenceStrip := byteAt bs 8
  silenceCarriage := byteAt bs 9
  silenceTrain := byteAt bs 10
  resetWait := byteAt bs 11
  errorLimit := byteAt bs 12

/-- The bytes of a frame record (11.3). -/
def frameRecordBytes (r : FrameRecord) : List Byte :=
  [r.drive, r.stripA, r.stripB, r.carriageA, r.carriageB, 0] ++ halfBytes r.spindles ++
    halfBytes r.pulseLength ++ halfBytes r.maxPulses ++ halfBytes r.draft ++ halfBytes r.density ++
    halfBytes r.doffLength ++ [r.rebreakLength, r.rebreakLimit, r.attemptLimit, r.piecingTime,
      r.parkTime, 0] ++ halfBytes r.bayFull ++ halfBytes r.reserve ++ halfBytes r.doffStart ++ [0, 0]

/-- The frame record of 32 bytes (11.3). -/
def frameRecordOf (bs : List Byte) : FrameRecord where
  drive := byteAt bs 0
  stripA := byteAt bs 1
  stripB := byteAt bs 2
  carriageA := byteAt bs 3
  carriageB := byteAt bs 4
  spindles := halfAt bs 6
  pulseLength := halfAt bs 8
  maxPulses := halfAt bs 10
  draft := halfAt bs 12
  density := halfAt bs 14
  doffLength := halfAt bs 16
  rebreakLength := byteAt bs 18
  rebreakLimit := byteAt bs 19
  attemptLimit := byteAt bs 20
  piecingTime := byteAt bs 21
  parkTime := byteAt bs 22
  bayFull := halfAt bs 24
  reserve := halfAt bs 26
  doffStart := halfAt bs 28

/-- A number lies in a range, both ends included. -/
def inRange (lo x hi : Nat) : Bool := lo ≤ x && x ≤ hi

/-- Every field of a row table lies in its range (R169). -/
def rowInRange (r : RowTable) : Bool :=
  inRange 0 r.framesInUse.toNat 4 && inRange 1 r.permitLimit.toNat 4 &&
    inRange 0 r.trainAddress.toNat 254 && inRange 0 r.exchangeStart.toNat 511 &&
    inRange 1 r.silenceDrive.toNat 255 && inRange 1 r.silenceStrip.toNat 255 &&
    inRange 1 r.silenceCarriage.toNat 255 && inRange 1 r.silenceTrain.toNat 255 &&
    inRange 1 r.resetWait.toNat 255

/-- Every field of a frame record lies in its range (R170). -/
def frameInRange (r : FrameRecord) : Bool :=
  inRange 0 r.drive.toNat 254 && inRange 0 r.stripA.toNat 254 && inRange 0 r.stripB.toNat 254 &&
    inRange 0 r.carriageA.toNat 254 && inRange 0 r.carriageB.toNat 254 &&
    inRange 48 r.spindles.toNat 768 && r.spindles.toNat % 48 == 0 &&
    inRange 1 r.pulseLength.toNat 65535 && inRange 1 r.maxPulses.toNat 4095 &&
    inRange 500 r.draft.toNat 9999 && inRange 100 r.density.toNat 20000 &&
    inRange 100 r.doffLength.toNat 20000 && inRange 1 r.rebreakLength.toNat 255 &&
    inRange 1 r.rebreakLimit.toNat 7 && inRange 1 r.attemptLimit.toNat 7 &&
    inRange 5 r.piecingTime.toNat 255 && inRange 1 r.parkTime.toNat 255 &&
    inRange 100 r.bayFull.toNat 65535 && inRange 0 r.reserve.toNat 65535 &&
    inRange 0 r.doffStart.toNat 511

/-- The bytes of a staged row table that carry no field are 0 (R171 order 4). -/
def rowSpareZero (bs : List Byte) : Bool :=
  byteAt bs 13 == 0 && byteAt bs 14 == 0 && byteAt bs 15 == 0

/-- The bytes of a staged frame record that carry no field are 0 (R170). -/
def frameSpareZero (bs : List Byte) : Bool :=
  byteAt bs 5 == 0 && byteAt bs 23 == 0 && byteAt bs 30 == 0 && byteAt bs 31 == 0

/-- The five station addresses of a frame record. -/
def frameAddresses (r : FrameRecord) : List Byte :=
  [r.drive, r.stripA, r.stripB, r.carriageA, r.carriageB]

/-- A non-zero address stands twice in a list. -/
def hasDuplicate : List Byte → Bool
  | [] => false
  | a :: as => (a != 0 && as.contains a) || hasDuplicate as

/-- The five addresses or the spindles per side differ (R80, R98, R172). -/
def layoutChanged (old new : FrameRecord) : Bool :=
  frameAddresses old != frameAddresses new || old.spindles != new.spindles

/-- Any geometry field differs (R54, R170). -/
def geometryChanged (old new : FrameRecord) : Bool :=
  layoutChanged old new || old.pulseLength != new.pulseLength || old.maxPulses != new.maxPulses ||
    old.draft != new.draft || old.density != new.density

/-! ### Step words (R99) -/

/-- The eight step kinds (R99). -/
inductive StepKind
  | endStep
  | command
  | wait
  | await
  | jump
  | call
  | ret
  | mark
  deriving DecidableEq, Repr

/-- The kind of a word; none for the unknown kinds 8–15 (R99). -/
def stepKind? (w : StepWord) : Option StepKind :=
  match w.kind with
  | 0#4 => some .endStep
  | 1#4 => some .command
  | 2#4 => some .wait
  | 3#4 => some .await
  | 4#4 => some .jump
  | 5#4 => some .call
  | 6#4 => some .ret
  | 7#4 => some .mark
  | _ => none

/-- The flag bits of a word (11.3). -/
def StepWord.chain (w : StepWord) : Bool := w.flags.getLsbD 0
def StepWord.slack (w : StepWord) : Bool := w.flags.getLsbD 1
def StepWord.note (w : StepWord) : Bool := w.flags.getLsbD 2
def StepWord.bayFlag (w : StepWord) : Bool := w.flags.getLsbD 3

/-- The action and parameter bytes of a COMMAND (R99). -/
def StepWord.action (w : StepWord) : Byte := w.argument.extractLsb' 8 8
def StepWord.parameter (w : StepWord) : Byte := w.argument.extractLsb' 0 8

/-- The role and side that a target byte names, if any (11.3). -/
def target? (b : Byte) : Option (Role × Option Side) :=
  match b with
  | 1#8 => some (.drive, none)
  | 2#8 => some (.strip, some .a)
  | 3#8 => some (.strip, some .b)
  | 4#8 => some (.carriage, some .a)
  | 5#8 => some (.carriage, some .b)
  | 6#8 => some (.train, none)
  | _ => none

end Sys2Proof.Machine
end

