-- ==== Sys2Proof/Config.lean ====
section
/-! DEFINITION. The free values: constants without a body, for what the manual leaves open.

Nothing in Lean can evaluate them, so a claim that is proved holds for every value of each.
Each is applied to plain data only. -/

namespace Sys2Proof

/-- Which of the 24 orders the blocks take when several of them take one announcement, or place an
entry in one queue, at the same moment: "either may take it first" (R12, R49, R135, R147).
Applied to the count of free values taken, a fresh order each time. DESIGN CHOICE of form, log 3. -/
opaque Config.blockOrder : Nat → Fin 24

/-- Whether a time left that is not a whole number of tenths of a second is given rounded up
(R96, R119, R123 give the unit, not the rounding). DESIGN CHOICE of form, log 4. -/
opaque Config.tenthsRoundUp : Bool

/-- The time left, in 0.1 s, that a park timer started with a park time of 255 shows: R93 says that
it never expires, and R96 that its time left is read. DESIGN CHOICE of form, log 5. -/
opaque Config.endlessParkLeft : Half

/-- How many of the 517 records a save had written when it was cut off (R177); 517 is "all written,
the completion not yet taken". Applied to the count of free values taken. Log 6. -/
opaque Config.saveProgress : Nat → Fin 518

/-- Whether a frame in use whose record is in default form reads as due in the doff queue item: R138
asks for it, R170 says that none of such a frame's fields is ever used in arithmetic. Log 7. -/
opaque Config.defaultDue : FrameNo → Bool

end Sys2Proof
end

