-- ==== Sys2Proof/Machine/Ops.lean ====
section
/-! DEFINITION. The named operations that the rest of the machine is written with: one update for
each block, reading what a block holds, the queues and transmitters of the Line Interface (R12 to
R15), timers, and the free order of blocks. -/

namespace Sys2Proof.Machine

/-! ### One update for each block -/

def State.setLi (s : State) (x : LineInterface) : State := { s with li := x }
def State.setSt (s : State) (x : List StationRecord) : State := { s with st := x }
def State.setFm (s : State) (x : Vector FrameItem 4) : State := { s with fm := x }
def State.setDi (s : State) (x : Vector DeliveryItem 4) : State := { s with di := x }
def State.setSpt (s : State) (x : Vector FrameSpindles 4) : State := { s with spt := x }
def State.setPd (s : State) (x : Vector CarriageRecord 8) : State := { s with pd := x }
def State.setSe (s : State) (x : SequenceEngine) : State := { s with se := x }
def State.setDs (s : State) (x : DoffScheduler) : State := { s with ds := x }
def State.setRc (s : State) (x : RovingController) : State := { s with rc := x }
def State.setSc (s : State) (x : ShiftCounters) : State := { s with sc := x }
def State.setMu (s : State) (x : ManagementUnit) : State := { s with mu := x }
def State.setOrders (s : State) (n : Nat) : State := { s with orders := n }
def State.setChoices (s : State) (n : Nat) : State := { s with choices := n }
def State.setPending (s : State) (q : List Instr) : State := { s with pending := q }

/-! ### Timers (units of 10 ms, log 2) -/

/-- A timer started from a number of 0.1 s units. -/
def timerTenths (n : Nat) : Timer := .running (10 * n)

/-- A timer started from a number of seconds. -/
def timerSeconds (n : Nat) : Timer := .running (100 * n)

/-- The timer runs. -/
def Timer.runs : Timer → Bool
  | .stopped => false
  | .running _ => true
  | .endless => true

/-- 10 ms pass: a running timer loses one unit and holds at 0 until its expiry is taken (log 2). -/
def Timer.pass : Timer → Timer
  | .stopped => .stopped
  | .running n => .running (n - 1)
  | .endless => .endless

/-- A time left in 0.1 s: exact for whole tenths, else rounded as Config says (log 4). -/
def tenths (left : Nat) : Nat :=
  if left % 10 = 0 then left / 10 else left / 10 + (if Config.tenthsRoundUp then 1 else 0)

/-! ### The free order of blocks (log 3) -/

/-- Several blocks take one event, one after another, in an order that is a free value. -/
def inAnyOrder (fs : List (State → State)) (s : State) : State :=
  (arrange (Config.blockOrder s.choices) fs).foldl (fun s f => f s) (s.setChoices (s.choices + 1))

/-! ### Reading what the blocks hold -/

/-- The frame is in use: its number is below F (R17). -/
def State.inUse (s : State) (f : FrameNo) : Bool := f.val < s.mu.row.framesInUse.toNat

/-- The frame record in force. -/
def State.record (s : State) (f : FrameNo) : FrameRecord := s.mu.frames.get f

/-- S, the spindles per side of the frame record in force (R61). -/
def State.perSide (s : State) (f : FrameNo) : Nat := (s.record f).spindles.toNat

def State.frameState (s : State) (f : FrameNo) : FrameState := (s.fm.get f).state
def State.odometer (s : State) (f : FrameNo) : Mm := (s.di.get f).odometer

/-- The station record with an address, if one is configured; the first in table order (log 17). -/
def State.stationAt (s : State) (a : Byte) : Option StationRecord := s.st.find? (·.address == a)

/-- The station record that holds a role (R17). -/
def State.stationOf (s : State) (role : Role) (f : Option FrameNo) (sd : Option Side) :
    Option StationRecord :=
  s.st.find? fun r => r.role == role && r.frame == f && r.side == sd

/-- A station record, if there is one, stands in ACTIVE. -/
def isActive : Option StationRecord → Bool
  | some r => r.link == .active
  | none => false

/-- The station record with an address is changed. -/
def State.updateStation (s : State) (a : Byte) (g : StationRecord → StationRecord) : State :=
  s.setSt (s.st.map fun r => if r.address = a then g r else r)

def State.setFrameItem (s : State) (f : FrameNo) (x : FrameItem) : State := s.setFm (putAt s.fm f x)
def State.setDelivery (s : State) (f : FrameNo) (x : DeliveryItem) : State := s.setDi (putAt s.di f x)

/-- A frame's pulse reference becomes unset (R40). -/
def State.unsetReference (s : State) (f : FrameNo) : State :=
  s.setDelivery f { s.di.get f with reference := none }

/-- The record of a spindle; a position beyond 1,535 reads as a fresh record. -/
def State.spindle (s : State) (f : FrameNo) (p : Nat) : SpindleRecord :=
  (s.spt.get f).records.toList.getD p .fresh

def State.setSpindle (s : State) (f : FrameNo) (p : Nat) (r : SpindleRecord) : State :=
  s.setSpt (putAt s.spt f { s.spt.get f with records := putNat (s.spt.get f).records p r })

/-- A spindle's state is set and its other fields kept. -/
def State.setSpindleState (s : State) (f : FrameNo) (p : Nat) (x : SpindleState) : State :=
  s.setSpindle f p { s.spindle f p with state := x }

def State.runningCount (s : State) (f : FrameNo) : Nat := (s.spt.get f).running

def State.setRunningCount (s : State) (f : FrameNo) (n : Nat) : State :=
  s.setSpt (putAt s.spt f { s.spt.get f with running := n })

/-- The place of a carriage record among the eight (R81). -/
def carriageIx (f : FrameNo) (sd : Side) : Fin 8 := ⟨2 * f.val + sideNo sd, by cases sd <;> simp [sideNo] <;> omega⟩

def State.carriage (s : State) (f : FrameNo) (sd : Side) : CarriageRecord := s.pd.get (carriageIx f sd)

def State.setCarriage (s : State) (f : FrameNo) (sd : Side) (c : CarriageRecord) : State :=
  s.setPd (putAt s.pd (carriageIx f sd) c)

def State.channel (s : State) (ch : ChannelNo) : Channel := s.se.channels.get ch

def State.setChannel (s : State) (ch : ChannelNo) (c : Channel) : State :=
  s.setSe { s.se with channels := putAt s.se.channels ch c }

/-- The step word at an address. -/
def State.stepAt (s : State) (a : Nat) : StepWord := s.se.steps.toList.getD a .endWord

/-- The place of a bay record among the 128 (R140). -/
def bayIx (b : BayId) : Fin 128 := ⟨32 * b.frame.val + 16 * sideNo b.side + b.index.val, by
  have := b.frame.isLt; have := b.index.isLt
  cases b.side <;> simp [sideNo] <;> omega⟩

def State.bay (s : State) (b : BayId) : BayRecord := s.rc.bays.get (bayIx b)

def State.setBay (s : State) (b : BayId) (x : BayRecord) : State :=
  s.setRc { s.rc with bays := putAt s.rc.bays (bayIx b) x }

/-- A frame's entry in the current shift record is changed. -/
def State.onEntry (s : State) (f : FrameNo) (g : ShiftEntry → ShiftEntry) : State :=
  s.setSc { s.sc with
    current := { s.sc.current with
      entries := putAt s.sc.current.entries f (g (s.sc.current.entries.get f)) } }

/-! ### Geometry (R61) -/

/-- The first position of a side. -/
def State.sideFirst (s : State) (f : FrameNo) : Side → Nat
  | .a => 0
  | .b => s.perSide f

/-- The positions of a side, ascending. -/
def State.sidePositions (s : State) (f : FrameNo) (sd : Side) : List Nat :=
  numbersFrom (s.sideFirst f sd) (s.perSide f)

/-- The side a position lies on. -/
def State.sideOf (s : State) (f : FrameNo) (p : Nat) : Side := if p < s.perSide f then .a else .b

/-- The bay a position lies in: offset j is in bay j / 48 (R61). -/
def State.bayOf (s : State) (f : FrameNo) (p : Nat) : BayId :=
  let sd := s.sideOf f p
  ⟨f, sd, Fin.ofNat 16 ((p - s.sideFirst f sd) / 48)⟩

/-- The positions of a bay, ascending: offsets 48b to 48b + 47 of its side (R61). -/
def State.bayPositions (s : State) (b : BayId) : List Nat :=
  numbersFrom (s.sideFirst b.frame b.side + 48 * b.index.val) 48

/-- A bay record belongs to a bay: its frame is in use and its index below S / 48 (R140). -/
def State.isBay (s : State) (b : BayId) : Bool :=
  s.inUse b.frame && b.index.val < s.perSide b.frame / 48

/-- The 32 bay records of a frame, side A then side B, each in ascending index (R142). -/
def frameBays (f : FrameNo) : List BayId :=
  (numbersFrom 0 16).map (fun i => ⟨f, .a, Fin.ofNat 16 i⟩) ++
    (numbersFrom 0 16).map (fun i => ⟨f, .b, Fin.ofNat 16 i⟩)

/-- The address a frame record gives a side's carriage. -/
def carriageAddress (r : FrameRecord) : Side → Byte
  | .a => r.carriageA
  | .b => r.carriageB

/-- A carriage record is in service (R81). -/
def State.inService (s : State) (f : FrameNo) (sd : Side) : Bool :=
  s.inUse f && carriageAddress (s.record f) sd != 0

/-- The carriage's station stands in ACTIVE. -/
def State.carriageActive (s : State) (f : FrameNo) (sd : Side) : Bool :=
  isActive (s.stationOf .carriage (some f) (some sd))

/-! ### The floor order queue and the transmitters (R12 to R15) -/

/-- The floor transmitter's choice: when it is not sending, it takes the oldest order, else the
oldest forward, else it sends fill (R14). -/
def State.floorChoice (s : State) : State :=
  match s.li.floorTx with
  | some _ => s
  | none =>
    match s.li.floorOrders, s.li.floorForward with
    | o :: rest, _ => s.setLi { s.li with floorOrders := rest, floorTx := some (.order o true) }
    | [], w :: rest => s.setLi { s.li with floorForward := rest, floorTx := some (.forward w) }
    | [], [] => s

/-- The mill transmitter's choice: own queue first, then the forward queue, else fill (R14). -/
def State.millChoice (s : State) : State :=
  match s.li.millTx with
  | some _ => s
  | none =>
    match s.li.millReplies, s.li.millForward with
    | t :: rest, _ => s.setLi { s.li with millReplies := rest, millTx := some (.reply t) }
    | [], t :: rest => s.setLi { s.li with millForward := rest, millTx := some (.forward t) }
    | [], [] => s

/-- The kinds that may stand in the floor order queue for a station of a link state (R15). -/
def orderAllowed : OrderBody → LinkState → Bool
  | .pieceOrder .., .active => true
  | .parkOrder, .active => true
  | .stepCommand .., .active => true
  | .reset, .resetting => true
  | _, _ => false

/-- A waiting order gives way to a newer one for the same station: a RESET to a RESET, a PARK ORDER
to a PIECE ORDER (R15). -/
def givesWay (new : OrderBody) (a : Byte) (old : Order) : Bool :=
  old.station == a && match new, old.body with
    | .reset, .reset => true
    | .pieceOrder .., .parkOrder => true
    | _, _ => false

/-- The orders that still wait when an order enters: those that do not give way to it (R15). -/
def State.ordersKept (s : State) (a : Byte) (b : OrderBody) : List Order :=
  s.li.floorOrders.filter fun o => !givesWay b a o

/-- An order that is offered enters the floor order queue: the station's link state allows its kind
(R15), and one of the 32 places is free once the older orders have given way (R12, R13). R15 counts on
a free place at every offer; what an offer without one comes to is the model's choice (DESIGN CHOICE,
log 31). -/
def State.orderEnters (s : State) (a : Byte) (b : OrderBody) : Bool :=
  match s.stationAt a with
  | none => false
  | some r => orderAllowed b r.link && (s.ordersKept a b).length < 32

/-- An order is offered to the floor order queue (R15). One that enters does so at the back, with the
number `orders` held, and an idle transmitter takes it at once (R14). One that does not enter is removed
as it is offered; its originator, who offers it, takes the removal (R15). -/
def State.offerOrder (s : State) (a : Byte) (b : OrderBody) : State :=
  if s.orderEnters a b then
    ((s.setLi { s.li with floorOrders := s.ordersKept a b ++ [⟨s.orders, a, b⟩] }).setOrders
      (s.orders + 1)).floorChoice
  else s

/-- The waiting orders that satisfy `p` are taken out; the order of the others is kept. -/
def State.dropOrders (s : State) (p : Order → Bool) : State :=
  s.setLi { s.li with floorOrders := s.li.floorOrders.filter fun o => !p o }

/-- A reply or NOTICE enters the mill reply queue, and an idle transmitter takes it (R14). The room
has been tested by the caller (R13). -/
def State.queueReply (s : State) (t : Telegram) : State :=
  (s.setLi { s.li with millReplies := s.li.millReplies ++ [t] }).millChoice

/-- The mill reply queue has a free place (R13). -/
def State.replyRoom (s : State) : Bool := s.li.millReplies.length < 8

def State.portRecord (s : State) : Port → PortRecord
  | .floor => s.li.floorRecord
  | .mill => s.li.millRecord

def State.setPortRecord (s : State) (p : Port) (r : PortRecord) : State :=
  match p with
  | .floor => s.setLi { s.li with floorRecord := r }
  | .mill => s.setLi { s.li with millRecord := r }

/-- An arrival is counted at its port (R5). -/
def State.countReceived (s : State) (p : Port) : State :=
  let r := s.portRecord p
  s.setPortRecord p { r with received := satAdd r.received 1 }

/-- A discarded telegram is counted at its port (R3, R5). -/
def State.countCheckError (s : State) (p : Port) : State :=
  let r := s.portRecord p
  s.setPortRecord p { r with checkErrors := satAdd r.checkErrors 1 }

/-- A dropped forward is counted at the port of its arrival (R5, R13). -/
def State.countDropped (s : State) (p : Port) : State :=
  let r := s.portRecord p
  s.setPortRecord p { r with forwardsDropped := satAdd r.forwardsDropped 1 }

def State.receiver (s : State) : Port → Receiver
  | .floor => s.li.floorRx
  | .mill => s.li.millRx

def State.setReceiver (s : State) (p : Port) (r : Receiver) : State :=
  match p with
  | .floor => s.setLi { s.li with floorRx := r }
  | .mill => s.setLi { s.li with millRx := r }

end Sys2Proof.Machine
end

