-- ==== Sys2Proof/Machine/Flags.lean ====
section
/-! DEFINITION. Every flag computation: the change flags of stations (R23, R24), the notice flags of
the Management Unit (R174) and the NOTICE telegram (R175). -/

namespace Sys2Proof.Machine

/-- The number of a notice class (R174). -/
def noticeNo : NoticeClass → Nat
  | .stationChange => 0
  | .lockout => 1
  | .sequenceEnded => 2
  | .progress => 3
  | .rovingUrgent => 4
  | .odometerJump => 5
  | .settingsFault => 6
  | .forwardLoss => 7

/-- The class mask with one class in it (11.2: bit n for class n). -/
def noticeBit (c : NoticeClass) : Byte := 1#8 <<< noticeNo c

/-- A condition latches its class, enabled or not; one that is latched is not changed (R174). -/
def State.latch (s : State) (c : NoticeClass) : State :=
  s.setMu { s.mu with latched := s.mu.latched ||| noticeBit c }

/-- The classes owed: latched, enabled and not told (R174). -/
def State.owed (s : State) : Byte := s.mu.latched &&& s.mu.row.enables &&& ~~~s.mu.told

/-- The moderation timer started from the interval in force; an interval of 0 leaves it expired at
once (R175). -/
def State.startModeration (s : State) : Timer :=
  if s.mu.row.moderation = 0 then .stopped else .running s.mu.row.moderation.toNat

/-- The NOTICE telegram: destination 0, source 255, tag 0, the classes listed, the classes latched
(R175, 11.2). -/
def noticeTelegram (listed latched : Byte) : Telegram := ⟨.part, 0, 255, kindNotice, [0, listed, latched]⟩

/-- At the end of an event: if a class is owed, the moderation timer has expired and the mill reply
queue has a free place, one NOTICE of every owed class is queued, the classes are told and the
timer starts (R175; log 11). -/
def State.tellNotices (s : State) : State :=
  if s.owed ≠ 0 ∧ s.mu.moderation = .stopped ∧ s.replyRoom then
    (s.setMu { s.mu with
      told := s.mu.told ||| s.owed
      moderation := s.startModeration }).queueReply (noticeTelegram s.owed s.mu.latched)
  else s

/-- The change flags with a name each (R23). -/
inductive ChangeFlag
  | presence
  | link
  | resetDone
  | errors
  deriving DecidableEq, Repr

/-- One change flag set (R23). -/
def ChangeFlags.with (x : ChangeFlags) : ChangeFlag → ChangeFlags
  | .presence => { x with presence := true }
  | .link => { x with link := true }
  | .resetDone => { x with resetDone := true }
  | .errors => { x with errors := true }

/-- A change flag of a station is set, which also latches STATION CHANGE (R23). -/
def State.setFlag (s : State) (a : Byte) (x : ChangeFlag) : State :=
  (s.updateStation a fun r => { r with flags := r.flags.with x }).latch .stationChange

/-- The flags of a mask cleared, the others kept (R24; bits 0–3 of 11.2). -/
def ChangeFlags.without (x : ChangeFlags) (mask : Byte) : ChangeFlags where
  presence := x.presence && !mask.getLsbD 0
  link := x.link && !mask.getLsbD 1
  resetDone := x.resetDone && !mask.getLsbD 2
  errors := x.errors && !mask.getLsbD 3

/-- The change flags as a byte (11.4: bits 0–3). -/
def changeByte (x : ChangeFlags) : Byte :=
  (if x.presence then 1 else 0) ||| (if x.link then 2 else 0) ||| (if x.resetDone then 4 else 0) |||
    (if x.errors then 8 else 0)

end Sys2Proof.Machine
end

