-- ==== Sys2Proof/Machine/Spindles.lean ====
section
/-! DEFINITION. The Spindle Table's own work: folds, joins, breaks and clearing (chapter 4). What
it hands on to other blocks (R73) is done by its callers. -/

namespace Sys2Proof.Machine

/-- A RUNNING record folded against the odometer; any other record as it is (R66). -/
def foldRecord (odo : Mm) (r : SpindleRecord) : SpindleRecord :=
  match r.state, r.runMark with
  | .running, some m => { r with cop := satAdd r.cop (odo - m).toNat, runMark := some odo }
  | _, _ => r

/-- The reported cop length (R67). -/
def reportedCop (odo : Mm) (r : SpindleRecord) : BitVec 32 :=
  match r.state, r.runMark with
  | .running, some m => satAdd r.cop (odo - m).toNat
  | _, _ => r.cop

/-- A spindle enters RUNNING: it joins (R65). -/
def State.joinSpindle (s : State) (f : FrameNo) (p : Nat) : State :=
  let r := s.spindle f p
  let odo := s.odometer f
  (s.setSpindle f p { r with
      state := .running
      runMark := some odo
      pieceMark := odo
      attempts := 0
      rebreaks := if r.state = .unseen ∨ r.state = .locked then 0 else r.rebreaks }).setRunningCount f
    (s.runningCount f + 1)

/-- The rebreak check: the spindle's rebreaks after a break (R72). -/
def rebreaksAfter (rec : FrameRecord) (odo : Mm) (r : SpindleRecord) : BitVec 3 :=
  if (odo - r.pieceMark).toNat < rec.rebreakLength.toNat * 1000 then satAdd r.rebreaks 1 else 0

/-- The state a break ends in: LOCKED when the rebreaks reach the limit, else the target (R71). -/
def breakState (rec : FrameRecord) (rebreaks : BitVec 3) (target : SpindleState) : SpindleState :=
  if rec.rebreakLimit.toNat ≤ rebreaks.toNat then .locked else target

/-- A break event of a RUNNING spindle, steps 1 to 5 of R71. -/
def State.breakSpindle (s : State) (f : FrameNo) (p : Nat) (target : SpindleState) : State :=
  let odo := s.odometer f
  let r := foldRecord odo (s.spindle f p)
  let n := rebreaksAfter (s.record f) odo r
  ((s.setSpindle f p { r with
      state := breakState (s.record f) n target
      runMark := none
      shiftBreaks := satAdd r.shiftBreaks 1
      rebreaks := n }).setRunningCount f (s.runningCount f - 1)).onEntry f
    fun e => { e with breaks := satAdd e.breaks 1 }

/-- A frame's spindle records and running count are cleared (R80). -/
def State.clearSpindles (s : State) (f : FrameNo) : State := s.setSpt (putAt s.spt f .fresh)

/-- A DOFF MARK's work on one record: the fold, then cop length 0 (R133 step 1). -/
def doffRecord (odo : Mm) (r : SpindleRecord) : SpindleRecord := { foldRecord odo r with cop := 0 }

/-- A line reset's work on one record, steps 1 to 4 of R79. -/
def lineResetRecord (odo : Mm) (r : SpindleRecord) : SpindleRecord :=
  { foldRecord odo r with state := .unseen, runMark := none, attempts := 0, rebreaks := 0 }

/-- The positions of a side that hold BROKEN spindles, ascending (R84). -/
def State.brokenOn (s : State) (f : FrameNo) (sd : Side) : List Nat :=
  placesFrom (fun r => r.state == .broken) (s.sideFirst f sd)
    (((s.spt.get f).records.toList.drop (s.sideFirst f sd)).take (s.perSide f))

end Sys2Proof.Machine
end

