-- ==== Sys2Proof/Machine/Piecing.lean ====
section
/-! DEFINITION. The Piecing Dispatcher: work lists, issue, the two timers, the returns at link
changes (chapter 5), and the spindle changes it asks for (R74). -/

namespace Sys2Proof.Machine

/-- The choice of R84 and R86 among ascending positions: the first at or ahead of the carriage in
its direction, else the nearest behind it. -/
def sweep (d : Direction) (p : Nat) (cands : List Nat) : Option Nat :=
  match d with
  | .up => match cands.find? (p ≤ ·) with
    | some x => some x
    | none => (cands.filter (· < p)).getLast?
  | .down => match (cands.filter (· ≤ p)).getLast? with
    | some x => some x
    | none => cands.find? (p < ·)

/-- The position and direction that the rules measure from (R81). -/
def State.sweepFrom (s : State) (f : FrameNo) (sd : Side) : Nat × Direction :=
  match (s.carriage f sd).position with
  | some p => (p, (s.carriage f sd).direction)
  | none => (s.sideFirst f sd, .up)

/-- An entry joins a list at the place its position gives (R82). -/
def insertEntry (e : ListEntry) : List ListEntry → List ListEntry
  | [] => [e]
  | x :: xs => if e.position < x.position then e :: x :: xs else x :: insertEntry e xs

/-- A spindle enters its side's work list and becomes QUEUED (R74, R82). -/
def State.enterList (s : State) (f : FrameNo) (sd : Side) (p : Nat) (deferred : Bool) : State :=
  (s.setCarriage f sd { s.carriage f sd with
      list := insertEntry ⟨p, deferred⟩ (s.carriage f sd).list }).setSpindleState f p .queued

/-- The five conditions of the park timer (R93). -/
def State.parkRuns (s : State) (f : FrameNo) (sd : Side) : Bool :=
  s.carriageActive f sd && (s.carriage f sd).inHand.isNone && (s.carriage f sd).list.isEmpty &&
    s.frameState f == .spinning && !(s.carriage f sd).parked

/-- The park timer started from a park time; 255 never expires (R93). -/
def parkStart (rec : FrameRecord) : Timer :=
  if rec.parkTime = 255 then .endless else timerSeconds rec.parkTime.toNat

/-- The park timer is brought into line with its conditions (R93). -/
def State.updatePark (s : State) (f : FrameNo) (sd : Side) : State :=
  let c := s.carriage f sd
  if s.inService f sd && s.parkRuns f sd then
    (if c.park.runs then s else s.setCarriage f sd { c with park := parkStart (s.record f) })
  else s.setCarriage f sd { c with park := .stopped }

/-- A refill without the evaluation of issue that follows it (R84). -/
def State.refillOnly (s : State) (f : FrameNo) (sd : Side) : State :=
  match sweep (s.sweepFrom f sd).2 (s.sweepFrom f sd).1 (s.brokenOn f sd) with
  | some p => if (s.carriage f sd).list.length < 32 then s.enterList f sd p false else s
  | none => s

/-- The entry that issue chooses (R86). -/
def State.chosenEntry (s : State) (f : FrameNo) (sd : Side) : Option Nat :=
  let l := (s.carriage f sd).list
  let pick := fun xs : List ListEntry =>
    sweep (s.sweepFrom f sd).2 (s.sweepFrom f sd).1 (xs.map (·.position))
  match pick (l.filter fun e => !e.deferred) with
  | some p => some p
  | none => pick (l.filter fun e => e.deferred)

/-- The in-hand slot is emptied and the piecing timer stopped (R90, R92). -/
def State.emptyHand (s : State) (f : FrameNo) (sd : Side) : State :=
  s.setCarriage f sd { s.carriage f sd with inHand := none, piecing := .stopped }

/-- A spindle in hand goes back to the list if there is room, else to BROKEN without being offered
(R74, R90): the return without the evaluation of issue that follows it. -/
def State.backToListOnly (s : State) (f : FrameNo) (sd : Side) (p : Nat) (deferred : Bool) : State :=
  if (s.carriage f sd).list.length < 32 then s.enterList f sd p deferred
  else s.setSpindleState f p .broken

/-- A chosen entry leaves the list and its spindle is in hand, steps 1 and 2 of R87. -/
def State.takeInHand (s : State) (f : FrameNo) (sd : Side) (p : Nat) : State :=
  let c := s.carriage f sd
  (s.setSpindleState f p .piecing).setCarriage f sd { c with
    list := c.list.filter fun e => e.position != p
    inHand := some ⟨p, (s.spindle f p).attempts.toNat + 1, .waiting, s.orders⟩ }

/-- Steps 4 and 5 of R87. The refill finds the hand full, so the evaluation it calls for issues
nothing. -/
def State.closeIssue (s : State) (f : FrameNo) (sd : Side) : State :=
  (s.setCarriage f sd
    { s.carriage f sd with ready := false, parked := false, park := .stopped }).refillOnly f sd

/-- A spindle is issued to its carriage: steps 1 to 5 of R87. A PIECE ORDER that did not enter the queue
is then taken as removed: the spindle goes back without an attempt (R15, R95), and with both flags clear
the return issues nothing (DESIGN CHOICE, log 31). -/
def State.issueSpindle (s : State) (f : FrameNo) (sd : Side) (p : Nat) : State :=
  let a := carriageAddress (s.record f) sd
  let b := .pieceOrder f sd p ((s.spindle f p).attempts.toNat + 1)
  let s1 := s.takeInHand f sd p
  let s2 := (s1.offerOrder a b).closeIssue f sd
  if s1.orderEnters a b then s2 else (s2.emptyHand f sd).backToListOnly f sd p false

/-- The conditions of issue (R85). -/
def State.issueHolds (s : State) (f : FrameNo) (sd : Side) : Bool :=
  let c := s.carriage f sd
  s.inService f sd && s.carriageActive f sd && c.inHand.isNone && (c.ready || c.parked) &&
    s.frameState f == .spinning && !c.list.isEmpty

/-- Issue is evaluated for a carriage, and the park timer with it (R85, R93). -/
def State.evalIssue (s : State) (f : FrameNo) (sd : Side) : State :=
  let s1 :=
    if s.issueHolds f sd then
      match s.chosenEntry f sd with
      | some p => s.issueSpindle f sd p
      | none => s
    else s
  s1.updatePark f sd

/-- A list is refilled after an entry has left it by a code, and issue is evaluated (R84). -/
def State.refill (s : State) (f : FrameNo) (sd : Side) : State := (s.refillOnly f sd).evalIssue f sd

/-- A spindle that has entered BROKEN is offered for its side's list (R83). -/
def State.offerSpindle (s : State) (f : FrameNo) (p : Nat) : State :=
  let sd := s.sideOf f p
  if s.inService f sd && (s.carriage f sd).list.length < 32 then
    (s.enterList f sd p false).evalIssue f sd
  else s

/-- A QUEUED spindle's entry leaves its list, and the list is refilled (R73, R84). -/
def State.leaveList (s : State) (f : FrameNo) (p : Nat) : State :=
  let sd := s.sideOf f p
  let c := s.carriage f sd
  (s.setCarriage f sd { c with list := c.list.filter fun e => e.position != p }).refill f sd

/-- The deferred flags of a list are cleared (R82, R90). -/
def State.clearDeferred (s : State) (f : FrameNo) (sd : Side) : State :=
  s.setCarriage f sd { s.carriage f sd with
    list := (s.carriage f sd).list.map fun e => { e with deferred := false } }

/-- A PIECING spindle goes back to the list if there is room, else to BROKEN without being offered
(R74, R90). A return to the list evaluates issue (R85). -/
def State.backToList (s : State) (f : FrameNo) (sd : Side) (p : Nat) (deferred : Bool) : State :=
  if (s.carriage f sd).list.length < 32 then (s.enterList f sd p deferred).evalIssue f sd
  else (s.setSpindleState f p .broken).updatePark f sd

/-- A FAILED outcome for a spindle just taken out of the hand (R90): attempts +1, then LOCKED at the
attempt limit, else back to the list undeferred. -/
def State.failSpindle (s : State) (f : FrameNo) (sd : Side) (p : Nat) : State :=
  let n := satAdd (s.spindle f p).attempts 1
  let s1 := (s.setSpindle f p { s.spindle f p with attempts := n }).onEntry f
    fun e => { e with failed := satAdd e.failed 1 }
  let s2 := s1.clearDeferred f sd
  if (s.record f).attemptLimit.toNat ≤ n.toNat then
    ((s2.setSpindleState f p .locked).latch .lockout).onEntry f
      fun e => { e with lockouts := satAdd e.lockouts 1 }
  else s2.backToList f sd p false

/-- An in-hand spindle is returned without an attempt (R92, R95). -/
def State.returnHand (s : State) (f : FrameNo) (sd : Side) : State :=
  match (s.carriage f sd).inHand with
  | some h => (s.emptyHand f sd).backToList f sd h.position false
  | none => s

/-- The removal report of a PIECE ORDER: the spindle whose issue placed it goes back (R16, R95). -/
def State.pieceRemoved (s : State) (f : FrameNo) (sd : Side) (number : Nat) : State :=
  match (s.carriage f sd).inHand with
  | some h => if h.phase = .waiting ∧ h.order = number then s.returnHand f sd else s
  | none => s

/-- The ready and parked flags are cleared and the park timer brought into line (R95). -/
def State.clearCarriageFlags (s : State) (f : FrameNo) (sd : Side) : State :=
  (s.setCarriage f sd { s.carriage f sd with ready := false, parked := false }).updatePark f sd

/-- A carriage restarts of its own accord: both flags are cleared and a SENT spindle returned; a
WAITING one is kept (R95). -/
def State.carriageRestarted (s : State) (f : FrameNo) (sd : Side) : State :=
  let s1 := s.clearCarriageFlags f sd
  match (s1.carriage f sd).inHand with
  | some h => if h.phase = .sent then s1.returnHand f sd else s1
  | none => s1

/-- The piecing timer expires (R92): FAILED when the carriage is ACTIVE, else a return without an
attempt; then issue is evaluated (R85). The error of an ACTIVE carriage is counted by the caller. -/
def State.piecingExpired (s : State) (f : FrameNo) (sd : Side) : State :=
  match (s.carriage f sd).inHand with
  | none => s
  | some h =>
    if s.carriageActive f sd then ((s.emptyHand f sd).failSpindle f sd h.position).evalIssue f sd
    else (s.returnHand f sd).evalIssue f sd

/-- The park timer expires: a PARK ORDER is offered and the parked flag set (R93). -/
def State.parkExpired (s : State) (f : FrameNo) (sd : Side) : State :=
  let s1 := s.offerOrder (carriageAddress (s.record f) sd) .parkOrder
  (s1.setCarriage f sd { s1.carriage f sd with parked := true }).updatePark f sd

/-- A PIECE ORDER has been sent: the slot whose issue placed it becomes SENT and the piecing timer
starts (R88). -/
def State.pieceSent (s : State) (f : FrameNo) (sd : Side) (number : Nat) : State :=
  let c := s.carriage f sd
  match c.inHand with
  | some h =>
    if h.phase = .waiting ∧ h.order = number then
      s.setCarriage f sd { c with
        inHand := some { h with phase := .sent }
        piecing := timerSeconds (s.record f).piecingTime.toNat }
    else s
  | none => s

/-- The CARRIAGES IDLE condition of a frame (R94). -/
def State.carriagesIdle (s : State) (f : FrameNo) : Bool :=
  [Side.a, Side.b].all fun sd => !s.inService f sd || (s.carriage f sd).inHand.isNone

/-- Both carriage records of a frame take the values of R81 (R97, R98). -/
def State.clearCarriages (s : State) (f : FrameNo) : State :=
  (s.setCarriage f .a .fresh).setCarriage f .b .fresh

/-- The Piecing Dispatcher takes a change of a frame's state: entry into SPINNING evaluates issue
for both carriages, and both park timers are updated (R85, R93, R94). -/
def State.piecingOnFrame (s : State) (f : FrameNo) : State :=
  if s.frameState f = .spinning then
    inAnyOrder [fun s => s.evalIssue f .a, fun s => s.evalIssue f .b] s
  else (s.updatePark f .a).updatePark f .b

end Sys2Proof.Machine
end

