-- ==== Sys2Proof/Machine/Roving.lean ====
section
/-! DEFINITION. The Roving Controller's own work: the estimate (R51), calls and the call list
(R142 to R144), EXCHANGE MARK (R149) and the settling of the current bay (R150). The train arbiter
stands in Arbiters.lean. -/

namespace Sys2Proof.Machine

/-- The yarn advance of a bay, in mm (R51 step 1). -/
def State.bayAdvance (s : State) (b : BayId) : Nat := (s.odometer b.frame - (s.bay b).mark).toNat

/-- The remaining roving of a bay, in mm, held at 0 (R51 steps 2 and 3). -/
def State.bayRemaining (s : State) (b : BayId) : Nat :=
  (s.record b.frame).bayFull.toNat * 1000 - s.bayAdvance b * 100 / (s.record b.frame).draft.toNat

/-- A call is due for the bay (R51). -/
def State.bayDue (s : State) (b : BayId) : Bool :=
  s.bayRemaining b ≤ (s.record b.frame).reserve.toNat * 1000

/-- The age of a stamp: how many calls ago it was given (R141). -/
def stampAge (counter : BitVec 32) (stamp : Option (BitVec 32)) : Nat :=
  match stamp with
  | some t => (counter - t).toNat
  | none => 0

/-- A bay enters a call list at the place its stamp's age gives, oldest first (R141, R144). -/
def insertCall (age : BayId → Nat) (b : BayId) : List BayId → List BayId
  | [] => [b]
  | x :: xs => if age x < age b then b :: x :: xs else x :: insertCall age b xs

/-- The age of a bay's stamp. -/
def State.callAge (s : State) (b : BayId) : Nat := stampAge s.rc.counter (s.bay b).stamp

/-- A bay joins the call list at the place its stamp gives (R144). -/
def State.listCall (s : State) (b : BayId) : State :=
  s.setRc { s.rc with calls := insertCall s.callAge b s.rc.calls }

/-- A new call of a bay: the counter's value is its stamp, the counter rises, and the bay enters the
list at the back (R141, R144). -/
def State.newCall (s : State) (b : BayId) (cls : CallClass) : State :=
  let s1 := s.setBay b { s.bay b with cls := cls, stamp := some s.rc.counter }
  s1.setRc { s1.rc with counter := s.rc.counter + 1, calls := s1.rc.calls ++ [b] }

/-- A bay leaves the call list from wherever it stands (R144). -/
def State.unlistCall (s : State) (b : BayId) : State :=
  s.setRc { s.rc with calls := s.rc.calls.filter fun x => x != b }

/-- A bay's call is removed: it leaves the list, its class is NONE and its stamp absent. -/
def State.dropCall (s : State) (b : BayId) : State :=
  let s1 := s.unlistCall b
  s1.setBay b { s1.bay b with cls := .none, stamp := none }

/-- A bay with a spindle just STARVED is called URGENT (R143); the caller evaluates the arbiter. -/
def State.urgentCall (s : State) (b : BayId) : State :=
  match (s.bay b).cls with
  | .none => (s.newCall b .urgent).latch .rovingUrgent
  | .planned => (s.setBay b { s.bay b with cls := .urgent }).latch .rovingUrgent
  | .urgent => s
  | .serving => s

/-- A STARVED spindle's bay makes a call or an upgrade, so that the arbiter is evaluated (R143). -/
def State.urgentIsNew (s : State) (b : BayId) : Bool :=
  (s.bay b).cls == .none || (s.bay b).cls == .planned

/-- One bay at an odometer announcement: a due bay of class NONE receives a PLANNED call (R142). -/
def State.planBay (s : State) (b : BayId) : State :=
  if s.isBay b && (s.bay b).cls == .none && s.bayDue b then s.newCall b .planned else s

/-- Every bay of the frame at an odometer announcement, side A then side B (R142). -/
def State.planFrame (s : State) (f : FrameNo) : State := (frameBays f).foldl State.planBay s

/-- A spindle of the bay is STARVED. -/
def State.bayStarved (s : State) (b : BayId) : Bool :=
  (s.bayPositions b).any fun p => (s.spindle b.frame p).state == .starved

/-- A STARVED spindle becomes BROKEN at the Roving Controller's request and is offered (R74). -/
def State.unstarve (f : FrameNo) (s : State) (p : Nat) : State :=
  if (s.spindle f p).state = .starved then (s.setSpindleState f p .broken).offerSpindle f p else s

/-- EXCHANGE MARK on the current bay, steps 1 to 5 of R149. -/
def State.exchangeMark (s : State) : State :=
  match s.rc.current with
  | none => s
  | some c =>
    let b := c.bay
    let s1 := s.setBay b { s.bay b with mark := s.odometer b.frame }
    let s2 := s1.dropCall b
    let s3 := (s2.bayPositions b).foldl (State.unstarve b.frame) s2
    let s4 := s3.onEntry b.frame fun e => { e with exchanges := satAdd e.exchanges 1 }
    s4.setRc { s4.rc with current := some { c with marked := true } }

/-- The current bay is settled and cleared at the end of its exchange (R150). -/
def State.settleBay (s : State) : State :=
  match s.rc.current with
  | none => s
  | some c =>
    let s1 :=
      if c.marked then s
      else
        let starved := s.bayStarved c.bay
        let s2 := (s.setBay c.bay { s.bay c.bay with
          cls := if starved then .urgent else .planned }).listCall c.bay
        if starved then s2.latch .rovingUrgent else s2
    s1.setRc { s1.rc with current := none }

/-- The current bay is one of the frame's bays (R131, R152). -/
def State.served (s : State) (f : FrameNo) : Bool :=
  match s.rc.current with
  | some c => c.bay.frame == f
  | none => false

/-- The frame is DOFFING. -/
def State.isDoffing (s : State) (f : FrameNo) : Bool := s.frameState f == .doffing

/-- The bay that the train arbiter chooses: the oldest URGENT, else the oldest PLANNED, whose frame
is not DOFFING (R145). -/
def State.chosenBay (s : State) : Option BayId :=
  match s.rc.calls.find? fun b => (s.bay b).cls == .urgent && !s.isDoffing b.frame with
  | some b => some b
  | none => s.rc.calls.find? fun b => (s.bay b).cls == .planned && !s.isDoffing b.frame

/-- The train is free for an exchange: its channel IDLE, an address given, its station ACTIVE (R145). -/
def State.trainFree (s : State) : Bool :=
  (s.channel trainChannel).state == .idle && s.mu.row.trainAddress != 0 &&
    isActive (s.stationOf .train none none)

/-- A chosen bay becomes SERVING and current and leaves the list (R146 steps 1 and 2). -/
def State.serveBay (s : State) (b : BayId) : State :=
  let s1 := (s.setBay b { s.bay b with cls := .serving }).unlistCall b
  s1.setRc { s1.rc with current := some ⟨b, false⟩ }

/-- The calls of a frame's 32 bay records are removed; marks are kept (R152). -/
def State.dropFrameCalls (s : State) (f : FrameNo) : State := (frameBays f).foldl State.dropCall s

/-- A bay's mark is set to its frame's odometer (R152). -/
def State.fillBay (s : State) (b : BayId) : State :=
  s.setBay b { s.bay b with mark := s.odometer b.frame }

/-- A frame's bays start full with no call (R152). -/
def State.clearBays (s : State) (f : FrameNo) : State :=
  ((frameBays f).foldl State.fillBay s).dropFrameCalls f

/-- A bay that holds a STARVED spindle is called URGENT again after a geometry commit (R152). -/
def State.recallBay (s : State) (b : BayId) : State :=
  if s.isBay b && s.bayStarved b then s.urgentCall b else s

end Sys2Proof.Machine
end

