-- ==== Sys2Proof/Machine/Doffing.lean ====
section
/-! DEFINITION. The Doff Scheduler's own work: the gauge (R50), requests (R126, R128) and DOFF MARK
(R133). The permit arbiter stands in Arbiters.lean. -/

namespace Sys2Proof.Machine

/-- The doff gauge of a frame, in mm (R50). -/
def State.gauge (s : State) (f : FrameNo) : Nat := (s.odometer f - s.ds.marks.get f).toNat

/-- A doff is due (R50). -/
def State.doffDue (s : State) (f : FrameNo) : Bool := (s.record f).doffLength.toNat * 1000 ≤ s.gauge f

/-- The frame has a pending request (R125). -/
def State.pendingDoff (s : State) (f : FrameNo) : Bool := s.ds.queue.contains f

/-- A request enters at the back of the doff queue (R126, R127). -/
def State.enterDoff (s : State) (f : FrameNo) : State :=
  s.setDs { s.ds with queue := s.ds.queue ++ [f] }

/-- A frame's pending request is removed; the others keep their order (R128). -/
def State.dropDoff (s : State) (f : FrameNo) : State :=
  s.setDs { s.ds with queue := s.ds.queue.filter fun x => x != f }

/-- The conditions under which an announcement enters a request (R126). -/
def State.doffEnters (s : State) (f : FrameNo) : Bool :=
  s.doffDue f && s.frameState f == .spinning && (s.channel (frameChannel f)).state != .ended &&
    !s.pendingDoff f

/-- DOFF MARK on a frame, steps 1 to 4 of R133. -/
def State.doffMark (s : State) (f : FrameNo) : State :=
  let odo := s.odometer f
  let spt := s.spt.get f
  let s1 := s.setSpt (putAt s.spt f { spt with
    records := mapFirst (2 * s.perSide f) (doffRecord odo) spt.records })
  let s2 := s1.setDs { s1.ds with marks := putAt s1.ds.marks f odo }
  (s2.onEntry f fun e => { e with doffs := satAdd e.doffs 1 }).dropDoff f

end Sys2Proof.Machine
end

