-- ==== Sys2Proof/Machine/Sequence.lean ====
section
/-! DEFINITION. The Sequence Engine: begin checks, the step kinds, the return stack, notes and the
channel's part of an ending (chapter 6). Handing an ending to other blocks (R120 steps 4 and 5)
stands in Arbiters.lean. -/

namespace Sys2Proof.Machine

/-- DRIVE STOPPED: the drive is ACTIVE and the flag clear (R32, R109). -/
def State.driveStopped (s : State) (f : FrameNo) : Bool :=
  isActive (s.stationOf .drive (some f) none) && !(s.fm.get f).running

/-- DRIVE RUNNING: the drive is ACTIVE and the flag set (R32, R109). -/
def State.driveRunning (s : State) (f : FrameNo) : Bool :=
  isActive (s.stationOf .drive (some f) none) && (s.fm.get f).running

/-- The condition that an AWAIT argument names on a frame (R109). -/
def State.awaitHolds (s : State) (f : FrameNo) (arg : Half) : Bool :=
  match arg with
  | 1#16 => s.driveStopped f
  | 2#16 => s.driveRunning f
  | 3#16 => s.carriagesIdle f
  | _ => false

/-- The condition of an AWAIT on a channel; the train channel has none (R105 check 5). -/
def State.channelAwait (s : State) (ch : ChannelNo) (w : StepWord) : Bool :=
  match channelFrame ch with
  | some f => s.awaitHolds f w.argument
  | none => false

/-- The role a COMMAND's target names lies in the channel's class (R105 check 8). -/
def targetInClass (ch : ChannelNo) (w : StepWord) : Bool :=
  match target? w.target, channelFrame ch with
  | some (.train, _), none => true
  | some (.train, _), some _ => false
  | some _, some _ => true
  | _, _ => false

/-- The station that holds a COMMAND's target role on the channel's frame, or the train (R108). -/
def State.targetStation (s : State) (ch : ChannelNo) (w : StepWord) : Option StationRecord :=
  match target? w.target with
  | some (role, sd) => s.stationOf role (channelFrame ch) sd
  | none => none

/-- The entry that a RETURN would pop: the pointer moved back by one (R111). -/
def popIx (p : Fin 4) : Fin 4 := p - 1

/-- A step takes no time when it completes within the event that begins it (R106). -/
def State.takesNoTime (s : State) (ch : ChannelNo) (w : StepWord) : Bool :=
  match stepKind? w with
  | some .jump => true
  | some .call => true
  | some .ret => true
  | some .mark => true
  | some .wait => w.limit == 0
  | some .await => s.channelAwait ch w
  | _ => false

/-- The kinds that read flags (R99, R113). -/
def readsFlags : Option StepKind → Bool
  | some .command => true
  | some .wait => true
  | some .await => true
  | some .mark => true
  | _ => false

/-- The begin checks in the order of R105: which fail, with the condition each ends in. -/
def State.beginChecks (s : State) (ch : ChannelNo) (first : Bool) (w : StepWord) :
    List (Bool × EndCondition) :=
  let k := stepKind? w
  let c := s.channel ch
  let onFrame := (channelFrame ch).isSome
  [ (k.isNone, .sequenceCheck),
    (k == some .jump && (first || c.jump), .sequenceCheck),
    ((k == some .command || k == some .await) && w.limit == 0, .sequenceCheck),
    (onFrame && readsFlags k && w.bayFlag, .sequenceCheck),
    (k == some .await && (!onFrame || !(w.argument == 1 || w.argument == 2 || w.argument == 3)),
      .sequenceCheck),
    (k == some .mark && w.argument != (if onFrame then 1 else 2), .sequenceCheck),
    (((k == some .jump || k == some .call) && 511 < w.argument.toNat) ||
      (k == some .ret && c.stack.get (popIx c.pointer) == 512), .sequenceCheck),
    (k == some .command && !targetInClass ch w, .sequenceCheck),
    (!onFrame && ((k == some .command && w.bayFlag) || k == some .mark) && s.rc.current.isNone,
      .sequenceCheck),
    (k == some .command && !isActive (s.targetStation ch w), .stationLost),
    (s.takesNoTime ch w && c.runCount == 16, .sequenceCheck) ]

/-- The condition of the first begin check that fails (R105). -/
def State.beginFailure (s : State) (ch : ChannelNo) (first : Bool) (w : StepWord) :
    Option EndCondition :=
  ((s.beginChecks ch first w).find? (·.1)).map (·.2)

/-- A channel's step timer stopped, its time left recorded as residual time if it ran (R107, R119). -/
def stopStepTimer (c : Channel) : Channel :=
  match c.timer with
  | .running n => { c with timer := .stopped, residual := some (tenths n) }
  | _ => { c with timer := .stopped }

/-- The order is a STEP COMMAND of the channel. -/
def isStepOf (ch : ChannelNo) (o : Order) : Bool :=
  match o.body with
  | .stepCommand c _ _ _ => c == ch
  | _ => false

/-- A sequence ends at a step, steps 1 to 3 of R120: the timer stops, the ending record is filled
(R119), a STEP COMMAND still waiting is removed, and the channel is IDLE for NORMAL, else ENDED with
SEQUENCE ENDED latched. -/
def State.endSequence (s : State) (ch : ChannelNo) (a : Nat) (e : EndCondition) : State :=
  let c := stopStepTimer (s.channel ch)
  let s1 := s.setChannel ch { c with
    state := if e = .normal then .idle else .ended
    cause := none
    address := none
    phase := none
    runCount := 0
    order := none
    ending := some
      { condition := e
        lastStep := a
        nextStep := a + 1
        lastReport := c.lastReport
        residual := c.residual
        noteSeen := c.noteSeen
        noteAddress := c.noteAddress
        cause := c.cause } }
  let s2 := s1.dropOrders (isStepOf ch)
  if e = .normal then s2 else s2.latch .sequenceEnded

/-- A step that has passed its checks is noted if it asks to be (R113), the jump flag is set for a
JUMP and cleared for every other kind, and a step taking no time is counted (R105, R106). -/
def State.enterStep (s : State) (ch : ChannelNo) (a : Nat) (w : StepWord) : State :=
  let c := s.channel ch
  let noted := readsFlags (stepKind? w) && w.note
  let s1 := s.setChannel ch { c with
    address := some a
    phase := none
    noteSeen := noted || c.noteSeen
    noteAddress := if noted then some a else c.noteAddress
    jump := stepKind? w == some .jump
    runCount := if s.takesNoTime ch w then c.runCount + 1 else c.runCount }
  if noted then s1.latch .progress else s1

/-- The bay that a STEP COMMAND carries: the current bay for a BAY flag on the train channel (R108). -/
def State.commandBay (s : State) (ch : ChannelNo) (w : StepWord) : Option BayId :=
  if w.bayFlag && (channelFrame ch).isNone then s.rc.current.map (·.bay) else none


/-- A WAIT or AWAIT step waits with its timer running (R107, R109). -/
def State.beginTimed (s : State) (ch : ChannelNo) (w : StepWord) (p : StepPhase) : State :=
  s.setChannel ch { s.channel ch with
    phase := some p
    timer := timerTenths w.limit.toNat
    runCount := 0 }

/-- A CALL pushes its own address plus one (R111). -/
def State.pushReturn (s : State) (ch : ChannelNo) (a : Nat) : State :=
  let c := s.channel ch
  s.setChannel ch { c with stack := putAt c.stack c.pointer (a + 1), pointer := c.pointer + 1 }

/-- A RETURN pops: the pointer moves back by one (R111). -/
def State.popReturn (s : State) (ch : ChannelNo) : State :=
  let c := s.channel ch
  s.setChannel ch { c with pointer := popIx c.pointer }

/-- The mark of a MARK step (R112). -/
def State.performMark (s : State) (ch : ChannelNo) : State :=
  match channelFrame ch with
  | some f => s.doffMark f
  | none => s.exchangeMark

/-- What follows a step once it is performed (R107 to R112, R116). -/
inductive Next
  | waits
  | ends (e : EndCondition)
  | goes (a : Nat)
  deriving DecidableEq, Repr

/-- A completed step with CHAIN goes to the next address, above 511 a SEQUENCE CHECK; without CHAIN
the sequence ends NORMAL (R115, R116). -/
def afterStep (w : StepWord) (next : Nat) : Next :=
  if w.chain then (if 511 < next then .ends .sequenceCheck else .goes next) else .ends .normal

/-- A COMMAND step waits for its telegram to be sent (R108). A STEP COMMAND that does not enter the queue
is removed as it is offered, and the step ends STATION LOST (R15, R118; for want of room DESIGN CHOICE,
log 31). -/
def State.beginCommand (s : State) (ch : ChannelNo) (w : StepWord) : State × Next :=
  match s.targetStation ch w with
  | none => (s, .ends .stationLost)
  | some r =>
    let b := .stepCommand ch w.action w.parameter (s.commandBay ch w)
    if s.orderEnters r.address b then
      ((s.setChannel ch { s.channel ch with
          phase := some .waiting
          order := some s.orders
          runCount := 0 }).offerOrder r.address b, .waits)
    else (s, .ends .stationLost)

/-- A step that has been entered is performed: the state after it and what follows. -/
def State.performStep (s : State) (ch : ChannelNo) (a : Nat) (w : StepWord) : State × Next :=
  match stepKind? w with
  | none => (s, .ends .sequenceCheck)
  | some .endStep => (s, .ends .normal)
  | some .command => s.beginCommand ch w
  | some .wait =>
    if w.limit = 0 then (s, afterStep w (a + 1)) else (s.beginTimed ch w .timing, .waits)
  | some .await =>
    if s.channelAwait ch w then (s, afterStep w (a + 1)) else (s.beginTimed ch w .watching, .waits)
  | some .jump => (s, .goes w.argument.toNat)
  | some .call => (s.pushReturn ch a, .goes w.argument.toNat)
  | some .ret =>
    let c := s.channel ch
    (s.popReturn ch, .goes (c.stack.get (popIx c.pointer)))
  | some .mark => (s.performMark ch, afterStep w (a + 1))

/-- Steps are begun one after another until one waits or the sequence ends (R105, R116). The number
bounds the steps of one event: of 17 steps in a row that take no time, check 11 refuses the last
(R106), so a walk begun with 17 never reaches 0. -/
def State.walkSteps : Nat → ChannelNo → Nat → Bool → State → State
  | 0, ch, a, _, s => s.endSequence ch a .sequenceCheck
  | n + 1, ch, a, first, s =>
    let w := s.stepAt a
    match s.beginFailure ch first w with
    | some e => s.endSequence ch a e
    | none =>
      match (s.enterStep ch a w).performStep ch a w with
      | (s1, .waits) => s1
      | (s1, .ends e) => s1.endSequence ch a e
      | (s1, .goes b) => State.walkSteps n ch b false s1

/-- The most steps that one walk may begin (R106). -/
def walkBound : Nat := 17

/-- A step that waited completes: the walk goes on at its next address or the sequence ends (R115,
R116). -/
def State.resumeWalk (s : State) (ch : ChannelNo) (a : Nat) (w : StepWord) (next : Nat) : State :=
  match afterStep w next with
  | .goes b => State.walkSteps walkBound ch b false s
  | .ends e => s.endSequence ch a e
  | .waits => s

/-- The channel's record at a start, steps 1 to 4 of R103. -/
def startChannel (c : Channel) (a : Nat) (cause : StartCause) : Channel :=
  { c with
    state := .running
    cause := some cause
    address := some a
    phase := none
    timer := .stopped
    stack := Vector.replicate 4 a
    pointer := 0
    runCount := 0
    jump := false
    noteSeen := false
    noteAddress := none
    ending := none
    lastReport := none
    residual := none
    order := none }

/-- The frame of a doff start becomes DOFFING, which the Frame Monitor announces (R33, R103 step 5,
R130). -/
def State.enterDoffing (s : State) (f : FrameNo) : State :=
  (s.setFrameItem f { s.fm.get f with state := .doffing }).piecingOnFrame f

/-- A sequence is started on a channel and walked until it waits or ends (R103). -/
def State.startSequence (s : State) (ch : ChannelNo) (a : Nat) (cause : StartCause) : State :=
  let s1 := s.setChannel ch (startChannel (s.channel ch) a cause)
  let s2 := match cause, channelFrame ch with
    | .doff, some f => s1.enterDoffing f
    | _, _ => s1
  State.walkSteps walkBound ch a true s2

/-- The channel no longer walks a sequence: it ended within the event. -/
def State.hasEnded (s : State) (ch : ChannelNo) : Bool := (s.channel ch).state != .running

end Sys2Proof.Machine
end

