-- ==== Sys2Proof/Machine/Arbiters.lean ====
section
/-! DEFINITION. What happens when the blocks meet: the train arbiter (R145, R146), the permit
arbiter (R129, R130), the handing on of endings (R120, R135, R150), the Frame Monitor's
announcements (R34) and the conditions of AWAIT steps (R109).

The walk of the permit arbiter and an exchange that ends in its own start evaluate no arbiter of
their own kind again (R129, R146), so nothing here calls itself: `trainChoice` is the train arbiter
without the permit arbiter, `permitArbiter` calls it, and `trainArbiter` is both. -/

namespace Sys2Proof.Machine

/-! ### The train arbiter -/

/-- The train arbiter evaluated, and the chosen exchange started (R145, R146). An exchange that ends
in its own start is settled at once (R150). The flag says that the current bay was cleared, which
the Doff Scheduler is told by the caller. -/
def State.trainChoice (s : State) : State × Bool :=
  if s.trainFree then
    match s.chosenBay with
    | none => (s, false)
    | some b =>
      let s1 := (s.serveBay b).startSequence trainChannel s.mu.row.exchangeStart.toNat .exchange
      if s1.hasEnded trainChannel then (s1.settleBay, true) else (s1, false)
  else (s, false)

/-- The Frame Monitor takes a frame out of DOFFING at the end of its doff: SPINNING, STANDING or
ABSENT from the drive and its flag (R31, R33). -/
def State.leaveDoffing (s : State) (f : FrameNo) : State :=
  s.setFrameItem f { s.fm.get f with
    state :=
      if s.driveRunning f then .spinning
      else if s.driveStopped f then .standing
      else .absent }

/-- A frame that has become ABSENT has its pending request removed (R128). -/
def State.dropIfAbsent (s : State) (f : FrameNo) : State :=
  if s.frameState f = .absent then s.dropDoff f else s

/-- One permit is released (R135). -/
def State.releasePermit (s : State) : State := s.setDs { s.ds with permits := s.ds.permits - 1 }

/-- The end of a doff (R135): the frame leaves DOFFING, and the Piecing Dispatcher, the Doff
Scheduler and the Roving Controller take it in either order. `permit` and `train` are the
evaluations of the two arbiters that the place of the ending allows. -/
def State.doffEnded (s : State) (f : FrameNo) (permit train : State → State) : State :=
  inAnyOrder
    [ fun s => s.piecingOnFrame f,
      fun s => permit ((s.dropIfAbsent f).releasePermit),
      train ]
    (s.leaveDoffing f)

/-! ### The permit arbiter -/

/-- The three conditions of a grant (R129). -/
def State.grantable (s : State) (f : FrameNo) : Bool :=
  (s.channel (frameChannel f)).state == .idle && !s.served f &&
    (s.frameState f == .spinning || s.frameState f == .standing)

/-- A request is granted (R130). A list that ends in its own start is handed back before the walk
goes on; the evaluation of the permit arbiter that falls due then is the walk itself (R129). -/
def State.grantDoff (s : State) (f : FrameNo) : State :=
  let s1 := s.dropDoff f
  let s2 := s1.setDs { s1.ds with permits := s1.ds.permits + 1 }
  let s3 := s2.startSequence (frameChannel f) (s.record f).doffStart.toNat .doff
  if s3.hasEnded (frameChannel f) then s3.doffEnded f (fun s => s) (fun s => s.trainChoice.1) else s3

/-- One request of the walk: granted if it still stands, a permit is free and its frame can doff
(R129). -/
def State.walkRequest (s : State) (f : FrameNo) : State :=
  if s.pendingDoff f && s.ds.permits < s.mu.row.permitLimit.toNat && s.grantable f then s.grantDoff f
  else s

/-- The permit arbiter walks the doff queue from the oldest request to the newest (R129). -/
def State.permitArbiter (s : State) : State := s.ds.queue.foldl State.walkRequest s

/-- The train arbiter evaluated; a current bay that was cleared in it evaluates the permit arbiter
(R145, R150). -/
def State.trainArbiter (s : State) : State :=
  if s.trainChoice.2 then s.trainChoice.1.permitArbiter else s.trainChoice.1

/-! ### Endings (R120 steps 4 and 5) -/

/-- The permit arbiter, if the frame channel is announced IDLE (R102, R129). -/
def State.channelIdle (s : State) (ch : ChannelNo) : State :=
  if (s.channel ch).state = .idle then s.permitArbiter else s

/-- The train arbiter, if the train channel is announced IDLE (R102, R145). -/
def State.trainIdle (s : State) : State :=
  if (s.channel trainChannel).state = .idle then s.trainArbiter else s

/-- The end of an exchange: the current bay is settled and cleared, which evaluates the permit
arbiter, and the channel is announced, which evaluates the train arbiter, in either order (R147,
R150). -/
def State.exchangeEnded (s : State) : State :=
  inAnyOrder [State.permitArbiter, State.trainIdle] s.settleBay

/-- The start cause that the channel's ending copied. -/
def State.endingCause (s : State) (ch : ChannelNo) : Option StartCause :=
  match (s.channel ch).ending with
  | some e => e.cause
  | none => none

/-- An ending is handed on with its start cause, and the channel's new state announced (R120 steps 4
and 5). -/
def State.handEnding (s : State) (ch : ChannelNo) : State :=
  match channelFrame ch, s.endingCause ch with
  | some f, some .doff => (s.doffEnded f State.permitArbiter State.trainArbiter).channelIdle ch
  | some _, _ => s.channelIdle ch
  | none, some .exchange => s.exchangeEnded
  | none, _ => s.trainIdle

/-- After a walk: an ending within it is handed on. -/
def State.afterWalk (s : State) (ch : ChannelNo) : State := if s.hasEnded ch then s.handEnding ch else s

/-- A sequence ends outside a walk, all of R120. -/
def State.finishSequence (s : State) (ch : ChannelNo) (a : Nat) (e : EndCondition) : State :=
  (s.endSequence ch a e).handEnding ch

/-- A step in hand that completes, and all that follows in the event (R115, R116). -/
def State.completeStep (s : State) (ch : ChannelNo) (a : Nat) (next : Nat) : State :=
  ((s.setChannel ch (stopStepTimer (s.channel ch))).resumeWalk ch a (s.stepAt a) next).afterWalk ch

/-- A start by the mill computer, and all that follows in the event (R103, R104). -/
def State.startByMill (s : State) (ch : ChannelNo) (a : Nat) : State :=
  (s.startSequence ch a .management).afterWalk ch

/-! ### Conditions and announcements -/

/-- A frame's AWAIT step in WATCHING whose condition holds completes (R109). -/
def State.watchFrame (s : State) (f : FrameNo) : State :=
  let ch := frameChannel f
  let c := s.channel ch
  match c.phase, c.address with
  | some .watching, some a =>
    if s.channelAwait ch (s.stepAt a) then s.completeStep ch a (a + 1) else s
  | _, _ => s

/-- The Doff Scheduler takes a frame's new state: ABSENT removes its request (R128), SPINNING or
STANDING evaluates the permit arbiter (R129). -/
def State.doffOnFrame (s : State) (f : FrameNo) : State :=
  match s.frameState f with
  | .absent => s.dropDoff f
  | .doffing => s
  | _ => s.permitArbiter

/-- The Frame Monitor announces what an event changed of a frame: its state, to the Piecing
Dispatcher and the Doff Scheduler, and its drive conditions, to the Sequence Engine, in any order
(R34). `old` is the state before the event. The Roving Controller's interest, a frame leaving
DOFFING, arises only at the end of a doff, which announces it itself (R135). -/
def State.announceFrame (s : State) (f : FrameNo) (old : FrameState) : State :=
  if s.frameState f = old then s.watchFrame f
  else inAnyOrder
    [fun s => s.piecingOnFrame f, fun s => s.watchFrame f, fun s => s.doffOnFrame f] s

/-- The Piecing Dispatcher's announcement of CARRIAGES IDLE, with the result of the whole event, for
each frame (R94; log 13). -/
def State.announceIdle (s : State) : State := allFrames.foldl State.watchFrame s

/-- The end of an event that may have emptied a carriage's hand: CARRIAGES IDLE is announced (R94),
then the owed notices are told (R175). -/
def State.endEvent (s : State) : State := s.announceIdle.tellNotices

/-! ### Spindle changes that reach the train arbiter -/

/-- A spindle has entered STARVED: its bay is called, and the train arbiter evaluated if the call is
new or an upgrade (R73, R143). -/
def State.starved (s : State) (f : FrameNo) (p : Nat) : State :=
  let b := s.bayOf f p
  if s.urgentIsNew b then (s.urgentCall b).trainArbiter else s

/-- A spindle enters STARVED by a code or an outcome. -/
def State.starveSpindle (s : State) (f : FrameNo) (p : Nat) : State :=
  (s.setSpindleState f p .starved).starved f p

end Sys2Proof.Machine
end

