-- ==== Sys2Proof/Machine/Stations.lean ====
section
/-! DEFINITION. The Station Table: link changes and what they mean to the other blocks (R16, R18,
R20 to R30), error counts (R25, R26), and the building of the table (R17, R36). -/

namespace Sys2Proof.Machine

/-! ### Building the table -/

/-- A record that a table's address calls for: none for an address of 0 (R17, R19). -/
def newStation (a : Byte) (role : Role) (f : Option FrameNo) (sd : Option Side) : List StationRecord :=
  if a = 0 then [] else [⟨a, role, f, sd, .absent, .clear, 0, .stopped, none⟩]

/-- The records of one frame (R17). -/
def frameStations (r : FrameRecord) (f : FrameNo) : List StationRecord :=
  newStation r.drive .drive (some f) none ++ newStation r.stripA .strip (some f) (some .a) ++
    newStation r.stripB .strip (some f) (some .b) ++
    newStation r.carriageA .carriage (some f) (some .a) ++
    newStation r.carriageB .carriage (some f) (some .b)

/-- The records that the tables in force call for, all in ABSENT (R17, R36). -/
def State.builtStations (s : State) : List StationRecord :=
  ((allFrames.filter fun f => s.inUse f).flatMap fun f => frameStations (s.record f) f) ++
    newStation s.mu.row.trainAddress .train none none

/-- Two records agree in the four values of R18. -/
def sameStation (x y : StationRecord) : Bool :=
  x.address == y.address && x.role == y.role && x.frame == y.frame && x.side == y.side

/-! ### What a link change means to the Sequence Engine (R118) -/

/-- The channel of a station: its frame's, or the train's (R114). -/
def stationChannel (r : StationRecord) : ChannelNo :=
  match r.frame with
  | some f => frameChannel f
  | none => trainChannel

/-- The channel has a COMMAND step in hand whose target role the station holds (R114, R118). -/
def State.stepTargets (s : State) (r : StationRecord) : Option Nat :=
  let c := s.channel (stationChannel r)
  match c.state, c.phase, c.address with
  | .running, some p, some a =>
    if (p = .waiting ∨ p = .sent) ∧
        (s.stepAt a |> fun w => target? w.target) = some (r.role, r.side) then some a
    else none
  | _, _, _ => none

/-- A COMMAND step loses its station by departure: the sequence ends STATION LOST (R118). -/
def State.loseStation (s : State) (r : StationRecord) : State :=
  match s.stepTargets r with
  | some a => s.finishSequence (stationChannel r) a .stationLost
  | none => s

/-- The removal of an order is reported to its originator (R16): a PIECE ORDER's spindle goes back
(R95), a STEP COMMAND's step ends STATION LOST (R118), the others have no further effect. -/
def State.reportRemoval (s : State) (o : Order) : State :=
  match o.body with
  | .pieceOrder f sd _ _ => s.pieceRemoved f sd o.number
  | .stepCommand ch _ _ _ =>
    let c := s.channel ch
    match c.phase, c.address with
    | some .waiting, some a =>
      if c.order = some o.number then s.finishSequence ch a .stationLost else s
    | _, _ => s
  | .parkOrder => s
  | .reset => s

/-- The waiting orders of a station that its link state does not allow are removed, oldest first,
and each removal reported (R15, R16). -/
def State.removeOrders (s : State) (a : Byte) (link : LinkState) : State :=
  let out := fun o : Order => o.station == a && !orderAllowed o.body link
  (s.li.floorOrders.filter out).foldl State.reportRemoval (s.dropOrders out)

/-! ### Leaving ACTIVE and joining (R20, R30) -/

/-- The drive of a frame leaves ACTIVE, is removed, or joins: the flag is cleared, the pulse
reference unset, and a frame not DOFFING takes the given state (R31, R32, R40). -/
def State.driveChanged (s : State) (f : FrameNo) (x : FrameState) : State :=
  (s.setFrameItem f ⟨if s.frameState f = .doffing then .doffing else x, false⟩).unsetReference f

/-- The state of a station's frame; ABSENT for the train, which has none. -/
def State.stationFrameState (s : State) (r : StationRecord) : FrameState :=
  match r.frame with
  | some f => s.frameState f
  | none => .absent

/-- What leaving ACTIVE means to the blocks that depend on the station's role (R30, R95, R118).
`old` is the frame's state that the Frame Monitor's announcement is measured against (R34). -/
def State.departed (s : State) (r : StationRecord) (old : FrameState) : State :=
  let s1 := match r.role, r.frame, r.side with
    | .drive, some f, _ => (s.driveChanged f .absent).announceFrame f old
    | .carriage, some f, some sd => s.clearCarriageFlags f sd
    | _, _, _ => s
  s1.loseStation r

/-- A carriage that goes to RESETTING or DISABLED, from any state, has its in-hand spindle returned
at once (R95). -/
def State.returnIfTaken (s : State) (r : StationRecord) (x : LinkState) : State :=
  match r.role, r.frame, r.side with
  | .carriage, some f, some sd =>
    if x = .resetting ∨ x = .disabled then s.returnHand f sd else s
  | _, _, _ => s

/-- A station's link state changes to one other than ACTIVE (R20): the link timer stops, the orders
not allowed are removed, and the departure is announced if the station was ACTIVE. A station that
joined in the same arrival gives in `joined` its frame's state before the arrival, so that the Frame
Monitor's one announcement carries the result of both (R34). The removals belong to the change itself
(R30). After them the blocks of the role take the departure, then the Sequence Engine ends a step with
all that follows from it, then the Piecing Dispatcher returns the in-hand spindle at once: R30, R95 and
R118 give no order among these (DESIGN CHOICE, log 36). -/
def State.unlink (s : State) (r : StationRecord) (x : LinkState) (joined : Option FrameState := none) :
    State :=
  let s1 := s.updateStation r.address fun y => { y with link := x, timer := .stopped }
  let s2 := s1.removeOrders r.address x
  let s3 := if r.link = .active then s2.departed r (joined.getD (s2.stationFrameState r)) else s2
  s3.returnIfTaken r x

/-- The silence limit of a role (R22). -/
def silenceLimit (t : RowTable) : Role → Nat
  | .drive => t.silenceDrive.toNat
  | .strip => t.silenceStrip.toNat
  | .carriage => t.silenceCarriage.toNat
  | .train => t.silenceTrain.toNat

/-- The change flag of a join, by the state it leaves (R20, R23). -/
def joinFlag : LinkState → ChangeFlag
  | .absent => .presence
  | .resetting => .resetDone
  | _ => .link

/-- A station joins (R20): ACTIVE, error count 0, silence timer started, its flag set, its waiting
RESET removed, and the join taken by the blocks of its role (R30). The Frame Monitor's announcement
of a drive's join is left to the caller, which makes one for the whole arrival (R34). -/
def State.joinStation (s : State) (r : StationRecord) : State :=
  let s1 := s.updateStation r.address fun y => { y with
    link := .active
    errorCount := 0
    timer := timerTenths (silenceLimit s.mu.row r.role) }
  let s2 := (s1.setFlag r.address (joinFlag r.link)).removeOrders r.address .active
  match r.role, r.frame, r.side with
  | .drive, some f, _ => s2.driveChanged f .standing
  | .carriage, some f, some sd => s2.updatePark f sd
  | .train, _, _ => s2.trainArbiter
  | _, _, _ => s2

/-- A valid telegram from an ACTIVE station restarts its silence timer (R20, R22). -/
def State.renewSilence (s : State) (r : StationRecord) : State :=
  s.updateStation r.address fun y => { y with timer := timerTenths (silenceLimit s.mu.row r.role) }

/-! ### Station reset, hand-over and errors -/

/-- A station is reset, steps 1 and 2 of R27: RESETTING, its effects, and a RESET offered. The Station
Table takes no action on a RESET that does not enter the queue (R16; log 31). -/
def State.resetStation (s : State) (r : StationRecord) (joined : Option FrameState := none) : State :=
  let s1 := s.unlink r .resetting joined
  (s1.updateStation r.address fun y => { y with resetOrder := some s1.orders }).offerOrder r.address .reset

/-- A station is handed to the mill computer (R29). -/
def State.disableStation (s : State) (r : StationRecord) : State :=
  if r.link = .disabled then s else (s.setFlag r.address .link).unlink r .disabled

/-- A fault is counted against a station (R25), and the error limit is applied (R26). -/
def State.countError (s : State) (a : Byte) (joined : Option FrameState := none) : State :=
  let s1 := (s.updateStation a fun y => { y with errorCount := satAdd y.errorCount 1 }).setFlag a .errors
  match s1.stationAt a with
  | none => s1
  | some r =>
    if s.mu.row.errorLimit ≠ 0 ∧ s.mu.row.errorLimit.toNat ≤ r.errorCount.toNat ∧ r.link = .active then
      s1.resetStation r joined
    else s1

/-! ### The Frame Monitor's one announcement of an arrival (R34) -/

/-- The Frame Monitor's announcement of what an arrival did to a drive's frame (R34). -/
def State.announceDrive (s : State) (r : StationRecord) (old : FrameState) : State :=
  match r.role, r.frame with
  | .drive, some f => s.announceFrame f old
  | _, _ => s

/-- The announcement of a drive's join, when the arrival does no more at the Frame Monitor. -/
def State.announceJoin (s : State) (r : StationRecord) (old : FrameState) (joined : Bool) : State :=
  if joined then s.announceDrive r old else s

/-- A fault found in the telegram of an arrival: it is counted, and a join by the same arrival is
announced after it, if the error limit has left the station ACTIVE. If the limit has reset the
station, the departure's announcement is the one of the arrival (R25, R26, R34). -/
def State.faultOfArrival (s : State) (r : StationRecord) (old : FrameState) (joined : Bool) : State :=
  let s1 := s.countError r.address (if joined then some old else none)
  if isActive (s1.stationAt r.address) then s1.announceJoin r old joined else s1

/-- The silence timer of an ACTIVE station expires (R22). -/
def State.silenceExpired (s : State) (r : StationRecord) : State :=
  if r.link = .active ∧ r.timer.runs then (s.setFlag r.address .link).unlink r .silent else s

/-- The reset wait of a RESETTING station expires (R28). -/
def State.resetWaitExpired (s : State) (r : StationRecord) : State :=
  if r.link = .resetting ∧ r.timer.runs then (s.setFlag r.address .presence).unlink r .absent else s

/-- A RESET has been sent: the reset wait starts if it was the most recent one and the station is
still RESETTING (R27 step 3). -/
def State.resetSent (s : State) (a : Byte) (number : Nat) : State :=
  s.updateStation a fun y =>
    if y.link = .resetting ∧ y.resetOrder = some number then
      { y with timer := timerTenths s.mu.row.resetWait.toNat }
    else y

/-- A RESET REPORT taken outside RESETTING, beyond its liveness: RESET DONE is set, a drive has
restarted its count, a carriage has lost its order (R21, R32, R40, R95). -/
def State.restarted (s : State) (r : StationRecord) : State :=
  let s1 := s.setFlag r.address .resetDone
  match r.role, r.frame, r.side with
  | .drive, some f, _ => (s1.setFrameItem f { s1.fm.get f with running := false }).unsetReference f
  | .carriage, some f, some sd => s1.carriageRestarted f sd
  | _, _, _ => s1

/-! ### The table brought into line by a commit (R18) -/

/-- A record that the new tables do not call for is removed: its waiting orders are removed and
reported, and it leaves ACTIVE if it was ACTIVE (R16, R18, R30). The record itself is gone already. -/
def State.removedStation (s : State) (r : StationRecord) : State :=
  let s1 := s.removeOrders r.address .absent
  if r.link = .active then s1.departed r (s1.stationFrameState r)
  else
    match r.role, r.frame with
    | .drive, some f => (s1.driveChanged f .absent).announceFrame f (s1.frameState f)
    | _, _ => s1

/-- The station table after a commit: records found again are kept, the others removed, new ones
added in ABSENT (R18). -/
def State.rebuildStations (s : State) : State :=
  let wanted := s.builtStations
  let gone := s.st.filter fun r => !wanted.any (sameStation r)
  let table := wanted.map fun w => (s.st.find? (sameStation w)).getD w
  gone.foldl State.removedStation (s.setSt table)

end Sys2Proof.Machine
end

