-- ==== Sys2Proof/Machine/Delivery.lean ====
section
/-! DEFINITION. A delivery report: the Frame Monitor's part (R31, R32), then the Delivery
Integrator's (R38 to R48). -/

namespace Sys2Proof.Machine

/-- The drive states that say that the drive turns (R32). -/
def driveTurns : DriveState → Bool
  | .running => true
  | .slow => true
  | .stopped => false
  | .fault => false

/-- The Frame Monitor takes a delivery report: the flag follows the drive state, and so does the
frame state unless it is DOFFING (R31, R32). -/
def State.takeDrive (s : State) (f : FrameNo) (d : DriveState) : State :=
  s.setFrameItem f
    ⟨if s.frameState f = .doffing then .doffing else if driveTurns d then .spinning else .standing,
      driveTurns d⟩

/-- What a report's pulse count comes to: the whole millimetres delivered, the remainder, and
whether the delta was held. -/
structure Delivered where
  length : Nat
  remainder : Fin 1000
  held : Bool
  deriving DecidableEq, Repr

/-- The delivered length of a report (R39, R41 to R43). -/
def deliveredBy (rec : FrameRecord) (d : DeliveryItem) (count : Half) : Delivered :=
  match d.reference with
  | none => ⟨0, d.remainder, false⟩
  | some ref =>
    let delta := (count - ref).toNat
    let held := rec.maxPulses.toNat < delta
    let t := (if held then 0 else delta) * rec.pulseLength.toNat + d.remainder.val
    ⟨t / 1000, ⟨t % 1000, Nat.mod_lt _ (by decide)⟩, held⟩

/-- A length is accrued into the frame's entry of the current shift record (R45). -/
def State.accrue (s : State) (f : FrameNo) (length : Nat) : State :=
  let n := s.runningCount f
  let density := (s.record f).density.toNat
  s.onEntry f fun e => { e with
    advance := satAdd e.advance length
    spindleLength := satAdd e.spindleLength (length * n)
    massUnits := satAdd e.massUnits (length * n * density) }

/-- The Doff Scheduler takes an odometer announcement (R126). -/
def State.doffAnnounced (s : State) (f : FrameNo) : State :=
  if s.doffEnters f then (s.enterDoff f).permitArbiter else s

/-- The Roving Controller takes an odometer announcement: the train arbiter is evaluated once if a
call has entered (R142). -/
def State.rovingAnnounced (s : State) (f : FrameNo) : State :=
  let s1 := s.planFrame f
  if s1.rc.calls.length = s.rc.calls.length then s1 else s1.trainArbiter

/-- The odometer is announced to both blocks, in either order (R48, R49). -/
def State.announceOdometer (s : State) (f : FrameNo) : State :=
  inAnyOrder [fun s => s.doffAnnounced f, fun s => s.rovingAnnounced f] s

/-- The Delivery Integrator's steps 1 to 6: the four items, the notice of a held delta, the accrual
(R39 to R47). -/
def State.integrate (s : State) (f : FrameNo) (b : DeliveryBody) : State :=
  let d := s.di.get f
  let x := deliveredBy (s.record f) d b.count
  let s1 := s.setDelivery f
    ⟨d.odometer + BitVec.ofNat 40 x.length, x.remainder, some b.count, some b.speed⟩
  let s2 := if x.held then s1.latch .odometerJump else s1
  s2.accrue f x.length

/-- A well-formed delivery report. `old` is the frame's state before the whole arrival, which the
Frame Monitor's one announcement is measured against (R34, R38). The announcement is taken whole,
with any step it completes and the steps after that, before the length is added (DESIGN CHOICE, log
34). -/
def State.deliver (s : State) (f : FrameNo) (old : FrameState) (b : DeliveryBody) : State :=
  (((s.takeDrive f b.drive).announceFrame f old).integrate f b).announceOdometer f

end Sys2Proof.Machine
end

