-- ==== Sys2Proof/Machine/BreakWatch.lean ====
section
/-! DEFINITION. Section reports: the 24 codes against the spindle states (R68 to R73), and SPINDLE
RELEASE's change (R76). -/

namespace Sys2Proof.Machine

/-- A spindle enters BROKEN by a code, an exchange or a release, and is offered (R73). -/
def State.brokenOffer (s : State) (f : FrameNo) (p : Nat) : State :=
  (s.setSpindleState f p .broken).offerSpindle f p

/-- A break event and what the state it ends in hands on (R71, R73). -/
def State.breakTo (s : State) (f : FrameNo) (p : Nat) (target : SpindleState) : State :=
  let s1 := s.breakSpindle f p target
  match (s1.spindle f p).state with
  | .broken => s1.offerSpindle f p
  | .starved => s1.starved f p
  | .locked => s1.latch .lockout
  | _ => s1

/-- One code of a section report against the state its spindle holds (R70). The spindle's fields and
the running count are set first, then the list removal is handed on, then the state entered (R73). -/
def State.takeCode (f : FrameNo) (s : State) (x : Nat × SpindleCode) : State :=
  match (s.spindle f x.1).state, x.2 with
  | .unseen, .yarn => s.joinSpindle f x.1
  | .unseen, .down => s.brokenOffer f x.1
  | .unseen, .braked => s
  | .unseen, .noRoving => s.starveSpindle f x.1
  | .running, .yarn => s
  | .running, .down => s.breakTo f x.1 .broken
  | .running, .braked => s.breakTo f x.1 .broken
  | .running, .noRoving => s.breakTo f x.1 .starved
  | .broken, .yarn => s.joinSpindle f x.1
  | .broken, .down => s
  | .broken, .braked => s
  | .broken, .noRoving => s.starveSpindle f x.1
  | .queued, .yarn => (s.joinSpindle f x.1).leaveList f x.1
  | .queued, .down => s
  | .queued, .braked => s
  | .queued, .noRoving => ((s.setSpindleState f x.1 .starved).leaveList f x.1).starved f x.1
  | .piecing, _ => s
  | .starved, .yarn => s.joinSpindle f x.1
  | .starved, .down => s.brokenOffer f x.1
  | .starved, .braked => s
  | .starved, .noRoving => s
  | .locked, .yarn => s.joinSpindle f x.1
  | .locked, .down => s
  | .locked, .braked => s
  | .locked, .noRoving => s

/-- The positions of a section of a side, with their codes, in ascending index (R61, R69). -/
def State.sectionCodes (s : State) (f : FrameNo) (sd : Side) (b : SectionBody) :
    List (Nat × SpindleCode) :=
  (numbersFrom (s.sideFirst f sd + 24 * b.index) 24).zip b.codes

/-- A section report is read: every code is taken whole before the next (R69). -/
def State.readSection (s : State) (f : FrameNo) (sd : Side) (b : SectionBody) : State :=
  (s.sectionCodes f sd b).foldl (State.takeCode f) s

/-- A section report at the Spindle Table (R68): a wrong body or a section beyond the side is
counted, and the codes are read only in SPINNING. -/
def State.takeSection (s : State) (r : StationRecord) (body : List Byte) : State :=
  match sectionBody? body, r.frame, r.side with
  | some b, some f, some sd =>
    if s.perSide f / 24 ≤ b.index then s.countError r.address
    else if s.frameState f = .spinning then s.readSection f sd b
    else s
  | _, _, _ => s.countError r.address

/-- A LOCKED spindle is released: BROKEN with attempts and rebreaks 0, and offered (R74, R76). -/
def State.releaseSpindle (s : State) (f : FrameNo) (p : Nat) : State :=
  (s.setSpindle f p { s.spindle f p with attempts := 0, rebreaks := 0 }).brokenOffer f p

end Sys2Proof.Machine
end

