-- ==== Sys2Proof/Machine/Carriages.lean ====
section
/-! DEFINITION. Carriage reports: the position, the outcome, the flags (R89 to R91). -/

namespace Sys2Proof.Machine

/-- A position lies on a side (R61, R89). -/
def State.onSide (s : State) (f : FrameNo) (sd : Side) (p : Nat) : Bool :=
  s.sideFirst f sd ≤ p && p < s.sideFirst f sd + s.perSide f

/-- The report's positions lie on the carriage's side; the outcome position only counts with an
outcome (R89, R180). -/
def State.carriageBodyFits (s : State) (f : FrameNo) (sd : Side) (b : CarriageBody) : Bool :=
  s.onSide f sd b.position && match b.outcome with
    | none => true
    | some o => s.onSide f sd o.2

/-- Step 1 of R89: position, direction and carriage state are stored. -/
def State.storeCarriage (s : State) (f : FrameNo) (sd : Side) (b : CarriageBody) : State :=
  s.setCarriage f sd { s.carriage f sd with
    position := some b.position
    direction := b.direction
    lastState := some b.state }

/-- An outcome for the in-hand spindle, taken as the table of R90 gives. -/
def State.takeOutcome (s : State) (f : FrameNo) (sd : Side) (o : PieceOutcome) (p : Nat) : State :=
  let s1 := s.emptyHand f sd
  match o with
  | .pieced => ((s1.clearDeferred f sd).joinSpindle f p).onEntry f
      fun e => { e with pieced := satAdd e.pieced 1 }
  | .notYet => s1.backToList f sd p true
  | .noRoving => (s1.clearDeferred f sd).starveSpindle f p
  | .notPossible => (((s1.clearDeferred f sd).setSpindleState f p .locked).latch .lockout).onEntry f
      fun e => { e with lockouts := satAdd e.lockouts 1 }
  | .failed => s1.failSpindle f sd p

/-- An outcome answers the in-hand spindle: same position, phase SENT (R90, R91). -/
def State.outcomeMatches (s : State) (f : FrameNo) (sd : Side) (p : Nat) : Bool :=
  match (s.carriage f sd).inHand with
  | some h => h.position == p && h.phase == .sent
  | none => false

/-- The report carries a stray outcome (R91). -/
def State.strayOutcome (s : State) (f : FrameNo) (sd : Side) (b : CarriageBody) : Bool :=
  match b.outcome with
  | some o => !s.outcomeMatches f sd o.2
  | none => false

/-- Step 2 of R89. -/
def State.outcomeStep (s : State) (f : FrameNo) (sd : Side) (b : CarriageBody) : State :=
  match b.outcome with
  | some o => if s.outcomeMatches f sd o.2 then s.takeOutcome f sd o.1 o.2 else s
  | none => s

/-- Step 3 of R89: READY sets the ready flag, PARKED the parked flag. -/
def State.flagStep (s : State) (f : FrameNo) (sd : Side) (x : CarriageState) : State :=
  match x with
  | .ready => s.setCarriage f sd { s.carriage f sd with ready := true }
  | .parked => s.setCarriage f sd { s.carriage f sd with parked := true }
  | .travelling => s
  | .working => s
  | .fault => s

/-- A well-formed carriage report, its four steps (R89). -/
def State.readCarriage (s : State) (f : FrameNo) (sd : Side) (b : CarriageBody) : State :=
  (((s.storeCarriage f sd b).outcomeStep f sd b).flagStep f sd b.state).evalIssue f sd

/-- A carriage report at the Piecing Dispatcher: a wrong body is counted and not acted on, a stray
outcome is counted after the rest has been taken (R89, R91). -/
def State.takeCarriage (s : State) (r : StationRecord) (body : List Byte) : State :=
  match carriage? body, r.frame, r.side with
  | some b, some f, some sd =>
    if s.carriageBodyFits f sd b then
      let s1 := s.readCarriage f sd b
      if s.strayOutcome f sd b then s1.countError r.address else s1
    else s.countError r.address
  | _, _, _ => s.countError r.address

/-- The piecing timer of a carriage expires (R92). An ACTIVE carriage's error is counted last. -/
def State.piecingExpiry (s : State) (f : FrameNo) (sd : Side) : State :=
  if (s.carriage f sd).piecing.runs then
    let s1 := s.piecingExpired f sd
    if s.carriageActive f sd then s1.countError (carriageAddress (s.record f) sd) else s1
  else s

/-- The park timer of a carriage expires; one started from 255 never does (R93). -/
def State.parkExpiry (s : State) (f : FrameNo) (sd : Side) : State :=
  match (s.carriage f sd).park with
  | .running _ => s.parkExpired f sd
  | .stopped => s
  | .endless => s

end Sys2Proof.Machine
end

