-- ==== Sys2Proof/Machine/Steps.lean ====
section
/-! DEFINITION. Step reports, the completion of a STEP COMMAND, and the expiry of a step timer
(R108, R114 to R117); CLEAR ENDING and HALT SEQUENCE's changes (R121, R122). -/

namespace Sys2Proof.Machine

/-- The step that a report from a station answers: a COMMAND step in SENT on the station's channel,
whose target role the station holds and whose action the report echoes (R114). -/
def State.answeredStep (s : State) (r : StationRecord) (b : StepBody) : Option Nat :=
  if (s.channel (stationChannel r)).phase = some .sent then
    match s.stepTargets r with
    | some a => if (s.stepAt a).action = b.echo then some a else none
    | none => none
  else none

/-- A matched report stops the step timer and is recorded as the last report (R114). -/
def State.recordReport (s : State) (ch : ChannelNo) (b : StepBody) : State :=
  s.setChannel ch { stopStepTimer (s.channel ch) with lastReport := some ⟨b.result, b.quantity⟩ }

/-- The report's quantity fails the step: checked, different, and not SLACK (R115 step 2). -/
def quantityFails (w : StepWord) (b : StepBody) : Bool :=
  w.quantity != 0 && b.quantity != w.quantity && !w.slack

/-- The address after a step that a report completes: plus one for DONE, plus two for DONE-ADVANCE
(R115 step 3). -/
def nextAddress (a : Nat) (r : StepResult) : Nat :=
  match r with
  | .doneAdvance => a + 2
  | _ => a + 1

/-- A matched report decides its COMMAND step (R115). -/
def State.decideStep (s : State) (ch : ChannelNo) (a : Nat) (b : StepBody) : State :=
  let s1 := s.recordReport ch b
  if b.result = .refused then s1.finishSequence ch a .refused
  else if quantityFails (s.stepAt a) b then s1.finishSequence ch a .short
  else s1.completeStep ch a (nextAddress a b.result)

/-- A step report at the Sequence Engine: a wrong body and a stray report are counted (R114). A step
that waits for a report has an ACTIVE target (R118), so a report that joins its station is stray. -/
def State.takeStep (s : State) (r : StationRecord) (old : FrameState) (joined : Bool) (body : List Byte) :
    State :=
  match stepReport? body with
  | none => s.faultOfArrival r old joined
  | some b =>
    match s.answeredStep r b with
    | some a => (s.announceJoin r old joined).decideStep (stationChannel r) a b
    | none => s.faultOfArrival r old joined

/-- A STEP COMMAND has been sent: the WAITING step that placed it becomes SENT, and its timer starts
from the step's time limit (R108). -/
def State.stepSent (s : State) (ch : ChannelNo) (number : Nat) : State :=
  let c := s.channel ch
  match c.address with
  | some a =>
    if c.phase = some .waiting ∧ c.order = some number then
      s.setChannel ch { c with phase := some .sent, timer := timerTenths (s.stepAt a).limit.toNat }
    else s
  | none => s

/-- The step timer of a channel expires: nothing is left of it, a WAIT completes, a step in SENT or
WATCHING ends the sequence TIMEOUT (R117). -/
def State.stepExpiry (s : State) (ch : ChannelNo) : State :=
  let c := s.channel ch
  if c.timer.runs then
    let s1 := s.setChannel ch { c with timer := .running 0 }
    match c.phase, c.address with
    | some .timing, some a => s1.completeStep ch a (a + 1)
    | some .sent, some a => s1.finishSequence ch a .timeout
    | some .watching, some a => s1.finishSequence ch a .timeout
    | _, _ => s
  else s

/-- A RUNNING sequence is ended at its step in hand (R118, R122). -/
def State.cutSequence (s : State) (ch : ChannelNo) (e : EndCondition) : State :=
  s.finishSequence ch ((s.channel ch).address.getD 0) e

/-- An ENDED channel becomes IDLE, its ending record kept, and the change is announced (R121). -/
def State.clearEnded (s : State) (ch : ChannelNo) : State :=
  let s1 := s.setChannel ch { s.channel ch with state := .idle }
  match channelFrame ch with
  | some _ => s1.channelIdle ch
  | none => s1.trainIdle

end Sys2Proof.Machine
end

