-- ==== Sys2Proof/Machine/Shift.lean ====
section
/-! DEFINITION. SHIFT CLOSE and the second timer (R157 to R163). -/

namespace Sys2Proof.Machine

/-- The mass of a frame in grams, half a gram rounded up (R160). -/
def massFigure (units : Nat) : BitVec 32 :=
  BitVec.ofNat 32 (min ((units + 50000000) / 100000000) (2 ^ 32 - 1))

/-- The efficiency in per mille, held at 1,000; 0 for no frame advance (R161). -/
def efficiencyFigure (n length advance : Nat) : Half :=
  BitVec.ofNat 16 (if n * advance = 0 then 0 else min (1000 * length / (n * advance)) 1000)

/-- The breaks per 1,000 spindle-hours, held at 65,535; 0 for no spin-seconds (R162). -/
def breakRateFigure (n breaks seconds : Nat) : Half :=
  BitVec.ofNat 16 (if n * seconds = 0 then 0 else min (breaks * 3600000 / (n * seconds)) 65535)

/-- The three figures of an entry, for N spindles (R159 step 1). -/
def figuresOf (n : Nat) (e : ShiftEntry) : Figures where
  mass := massFigure e.massUnits.toNat
  efficiency := efficiencyFigure n e.spindleLength.toNat e.advance.toNat
  breakRate := breakRateFigure n e.breaks.toNat e.spinSeconds.toNat

/-- A frame's entry at the close: its figures computed if the frame is in use (R159 step 1). -/
def State.closedEntry (s : State) (f : FrameNo) : ShiftEntry :=
  let e := s.sc.current.entries.get f
  { e with figures := if s.inUse f then some (figuresOf (2 * s.perSide f) e) else none }

/-- The record that the close files (R159 steps 1 and 2). -/
def State.closedRecord (s : State) : ShiftRecord :=
  { s.sc.current with
    state := .closed
    entries := ⟨#[s.closedEntry 0, s.closedEntry 1, s.closedEntry 2, s.closedEntry 3], rfl⟩ }

/-- The history ring with a record at position 1; at most four are held (R163). -/
def ringWith (r : ShiftRecord) (ring : List ShiftRecord) : List ShiftRecord := (r :: ring).take 4

/-- A frame's spindles with every shift breaks count 0 (R159 step 4). -/
def clearShiftBreaks (x : FrameSpindles) : FrameSpindles :=
  { x with records := mapAll (fun r => { r with shiftBreaks := 0 }) x.records }

/-- SHIFT CLOSE (R159). -/
def State.closeShift (s : State) : State :=
  (s.setSc { s.sc with
      current := .fresh (s.sc.current.number + 1)
      history := ringWith s.closedRecord s.sc.history }).setSpt (mapAll clearShiftBreaks s.spt)

/-- A frame gains a spin-second when it is in use and SPINNING (R157). -/
def State.spinSecond (s : State) (f : FrameNo) : State :=
  if s.inUse f && s.frameState f == .spinning then
    s.onEntry f fun e => { e with spinSeconds := satAdd e.spinSeconds 1 }
  else s

/-- One open second; the timer is restarted (R157). -/
def State.openSecond (s : State) : State :=
  s.setSc { s.sc with
    current := { s.sc.current with openSeconds := satAdd s.sc.current.openSeconds 1 }
    second := .running 100 }

/-- The second timer expires (R157). -/
def State.secondExpiry (s : State) : State :=
  if s.sc.second.runs then allFrames.foldl State.spinSecond s.openSecond else s

end Sys2Proof.Machine
end

