-- ==== Sys2Proof/Machine/Answers.lean ====
section
/-! DEFINITION. READ: what each item's ANSWER carries after the tag (R167, R181, R182, 11.4), and
the refusals of each item. -/

namespace Sys2Proof.Machine

/-! ### Codes and absent values (R181) -/

def spindleStateCode : SpindleState → BitVec 4
  | .unseen => 0
  | .running => 1
  | .broken => 2
  | .queued => 3
  | .piecing => 4
  | .starved => 5
  | .locked => 6

def frameStateCode : FrameState → Byte
  | .absent => 0
  | .standing => 1
  | .spinning => 2
  | .doffing => 3

def linkCode : LinkState → Byte
  | .absent => 0
  | .active => 1
  | .silent => 2
  | .resetting => 3
  | .disabled => 4

def roleCode : Role → Byte
  | .drive => 1
  | .strip => 2
  | .carriage => 3
  | .train => 4

def callCode : CallClass → BitVec 2
  | .none => 0
  | .planned => 1
  | .urgent => 2
  | .serving => 3

def channelStateCode : ChannelState → Byte
  | .idle => 0
  | .running => 1
  | .ended => 2

def causeCode : Option StartCause → Byte
  | none => 0
  | some .doff => 1
  | some .exchange => 2
  | some .management => 3

def phaseCode : Option StepPhase → Byte
  | none => 0
  | some .waiting => 1
  | some .sent => 2
  | some .timing => 3
  | some .watching => 4

def endCode : EndCondition → Byte
  | .normal => 1
  | .short => 2
  | .refused => 3
  | .timeout => 4
  | .sequenceCheck => 5
  | .stationLost => 6
  | .halted => 7

def saveCode : SaveState → Byte
  | .none => 0
  | .inFlight => 1
  | .complete => 2
  | .abandoned => 3

def recordCode : RecordState → Byte
  | .opened => 1
  | .closed => 2

def resultCode : StepResult → Byte
  | .done => 0
  | .doneAdvance => 1
  | .refused => 2

def directionCode : Direction → Byte
  | .up => 0
  | .down => 1

def carriageStateCode : Option CarriageState → Byte
  | some .ready => 0
  | some .travelling => 1
  | some .working => 2
  | some .parked => 3
  | some .fault => 4
  | none => 0xFF

/-- A position or step address, FFFFh when absent. -/
def addressBytes : Option Nat → List Byte
  | some a => bytesOf 2 a
  | none => [0xFF, 0xFF]

/-- A two-byte value after its presence byte; an absent one is 0 throughout. -/
def presentHalf : Option Half → List Byte
  | some x => 1 :: halfBytes x
  | none => [0, 0, 0]

/-- A number of two bytes, held, after its presence byte. -/
def presentNat : Option Nat → List Byte
  | some n => 1 :: heldBytes 2 n
  | none => [0, 0, 0]

/-- A frame, FFh when absent. -/
def frameByte : Option FrameNo → Byte
  | some f => BitVec.ofNat 8 f.val
  | none => 0xFF

/-- A side, FFh when absent. -/
def sideByte : Option Side → Byte
  | some sd => BitVec.ofNat 8 (sideNo sd)
  | none => 0xFF

/-- The time left on a timer in 0.1 s, none while it is stopped (R96, R123; logs 4 and 5). -/
def timeLeft : Timer → Option Nat
  | .stopped => none
  | .running n => some (tenths n)
  | .endless => some Config.endlessParkLeft.toNat

/-- The bytes of at most `n` entries; those beyond the list's length are 0 (R182). -/
def padded (n : Nat) (bs : List Byte) : List Byte := bs ++ List.replicate (n - bs.length) 0

/-! ### The items -/

/-- Frame part 1 (R60, 11.4). -/
def State.frameItems (s : State) (f : FrameNo) : List Byte :=
  let d := s.di.get f
  [frameStateCode (s.frameState f), flagByte (s.fm.get f).running] ++ bytesOf 5 d.odometer.toNat ++
    bytesOf 2 d.remainder.val ++ presentHalf d.reference ++ presentHalf d.lastSpeed ++
    bytesOf 2 (s.runningCount f)

/-- A station record without its link timer (R19, 11.4). -/
def stationBytes (r : StationRecord) : List Byte :=
  [r.address, roleCode r.role, frameByte r.frame, sideByte r.side, linkCode r.link,
    changeByte r.flags] ++ halfBytes r.errorCount

/-- The run mark as byte 1 of a spindle entry gives it: absent, equal to the piece mark, other. -/
def runMarkCode (r : SpindleRecord) : BitVec 4 :=
  match r.runMark with
  | none => 0
  | some m => if m = r.pieceMark then 1 else 2

/-- A spindle entry of 10 bytes (R77, 11.4). -/
def spindleBytes (odo : Mm) (r : SpindleRecord) : List Byte :=
  [spindleStateCode r.state ++ r.attempts.setWidth 4, r.rebreaks.setWidth 4 ++ runMarkCode r,
    r.shiftBreaks] ++ bytesOf 4 (reportedCop odo r).toNat ++ heldBytes 3 (odo - r.pieceMark).toNat

/-- The spindle records item (R77). -/
def State.spindleItem (s : State) (f : FrameNo) (first count : Nat) : List Byte :=
  bytesOf 5 (s.odometer f).toNat ++ heldBytes 4 (s.gauge f) ++
    (numbersFrom first count).flatMap fun p => spindleBytes (s.odometer f) (s.spindle f p)

/-- The age of a stamp in a bay entry: held at 8,190, 8,191 when absent (11.4). -/
def bayAge (counter : BitVec 32) : Option (BitVec 32) → BitVec 13
  | some t => BitVec.ofNat 13 (min (counter - t).toNat 8190)
  | none => 8191

/-- A bay entry of 7 bytes (R153, 11.4). -/
def State.bayBytes (s : State) (b : BayId) : List Byte :=
  let r := s.bay b
  halfBytes (callCode r.cls ++ BitVec.ofBool (s.bayDue b) ++ bayAge s.rc.counter r.stamp) ++
    heldBytes 3 (s.bayAdvance b / 1000) ++ heldBytes 2 (s.bayRemaining b / 1000)

/-- The bay records item (R153). -/
def State.bayItem (s : State) (f : FrameNo) (sd : Side) (first count : Nat) : List Byte :=
  (numbersFrom first count).flatMap fun i => s.bayBytes ⟨f, sd, Fin.ofNat 16 i⟩

/-- A work list entry of 2 bytes: deferred in bit 15, position in bits 10–0 (11.4). -/
def entryBytes (e : ListEntry) : List Byte :=
  halfBytes (BitVec.ofBool e.deferred ++ 0#4 ++ BitVec.ofNat 11 e.position)

/-- The in-hand slot: position, attempt number, phase (11.4). Of an absent slot R181 gives the position
alone; attempt number and phase are sent as 0 (DESIGN CHOICE, log 33). -/
def handBytes : Option InHand → List Byte
  | some h => bytesOf 2 h.position ++ bytesOf 1 h.attempt ++
      [match h.phase with
        | .waiting => 1
        | .sent => 2]
  | none => [0xFF, 0xFF, 0, 0]

/-- The carriage record item with one half of the list (R96, 11.4). -/
def carriageItem (c : CarriageRecord) (part : Nat) : List Byte :=
  addressBytes c.position ++ [directionCode c.direction, carriageStateCode c.lastState,
    (if c.ready then 1 else 0) ||| (if c.parked then 2 else 0)] ++ handBytes c.inHand ++
    presentNat (timeLeft c.piecing) ++ presentNat (timeLeft c.park) ++ bytesOf 1 c.list.length ++
    padded 32 (((c.list.drop (16 * part)).take 16).flatMap entryBytes)

/-- A last report: presence, result, quantity (11.4). -/
def reportBytes : Option LastReport → List Byte
  | some r => [1, resultCode r.result] ++ halfBytes r.quantity
  | none => [0, 0, 0, 0]

/-- An ending record of 17 bytes, all 0 when absent (R119, R182, 11.4). -/
def endingBytes : Option EndingRecord → List Byte
  | some e => [1, endCode e.condition] ++ bytesOf 2 e.lastStep ++ bytesOf 2 e.nextStep ++
      reportBytes e.lastReport ++ presentNat e.residual ++ [flagByte e.noteSeen] ++
      addressBytes e.noteAddress ++ [causeCode e.cause]
  | none => List.replicate 17 0

/-- The channel item (R123, 11.4). -/
def channelItem (c : Channel) : List Byte :=
  [channelStateCode c.state, causeCode c.cause] ++ addressBytes c.address ++ [phaseCode c.phase] ++
    presentNat (timeLeft c.timer) ++ c.stack.toList.flatMap (bytesOf 2) ++
    bytesOf 1 c.pointer.val ++ bytesOf 1 c.runCount ++ [flagByte c.noteSeen] ++
    addressBytes c.noteAddress ++ endingBytes c.ending

/-- The due flag of a frame in the doff queue item: the gauge against the doff length in force, 0 in
the default record of a frame not in use (R50, R138); free for a frame in use whose record is in
default form, which R170 keeps out of all arithmetic (log 7). -/
def State.dueShown (s : State) (f : FrameNo) : Bool :=
  if s.inUse f && s.record f = .default then Config.defaultDue f else s.doffDue f

/-- One frame of the doff queue item: mark, gauge, due (R138, 11.4). -/
def State.doffFrame (s : State) (f : FrameNo) : List Byte :=
  bytesOf 5 (s.ds.marks.get f).toNat ++ bytesOf 5 (s.gauge f) ++ [flagByte (s.dueShown f)]

/-- The doff queue item (R138, 11.4). -/
def State.doffItem (s : State) : List Byte :=
  let q := s.ds.queue.map fun f => BitVec.ofNat 8 f.val
  [s.mu.row.permitLimit] ++ bytesOf 1 s.ds.permits ++ bytesOf 1 q.length ++
    (q ++ List.replicate (4 - q.length) 0xFF) ++ allFrames.flatMap fun f => s.doffFrame f

/-- The current bay in the call list item (11.4). -/
def currentBytes : Option CurrentBay → List Byte
  | some c => [1#1 ++ BitVec.ofBool c.marked ++ BitVec.ofNat 2 c.bay.frame.val ++
      BitVec.ofNat 1 (sideNo c.bay.side) ++ 0#3, BitVec.ofNat 8 c.bay.index.val]
  | none => [0, 0]

/-- A call-list entry of 3 bytes (11.4). -/
def State.callBytes (s : State) (b : BayId) : List Byte :=
  [BitVec.ofNat 2 b.frame.val ++ BitVec.ofNat 1 (sideNo b.side) ++ BitVec.ofNat 4 b.index.val ++
      BitVec.ofBool ((s.bay b).cls == .urgent)] ++ heldBytes 2 (s.callAge b)

/-- The call list item (R153, 11.4). -/
def State.callItem (s : State) (part : Nat) : List Byte :=
  bytesOf 1 s.rc.calls.length ++ bytesOf 4 s.rc.counter.toNat ++ currentBytes s.rc.current ++
    padded 48 (((s.rc.calls.drop (16 * part)).take 16).flatMap s.callBytes)

/-- The three figures after their presence byte (11.4). -/
def figureBytes : Option Figures → List Byte
  | some x => [1] ++ bytesOf 4 x.mass.toNat ++ halfBytes x.efficiency ++ halfBytes x.breakRate
  | none => List.replicate 9 0

/-- A frame entry of a shift record (11.4). -/
def shiftEntryBytes (e : ShiftEntry) : List Byte :=
  bytesOf 6 e.spindleLength.toNat ++ bytesOf 5 e.advance.toNat ++ bytesOf 8 e.massUnits.toNat ++
    bytesOf 4 e.spinSeconds.toNat ++ bytesOf 4 e.breaks.toNat ++ bytesOf 4 e.pieced.toNat ++
    bytesOf 4 e.failed.toNat ++ bytesOf 4 e.lockouts.toNat ++ halfBytes e.doffs ++
    halfBytes e.exchanges ++ figureBytes e.figures

/-- The shift record item; an absent record is 0 throughout (R164, R181, R182). -/
def shiftItem (r : Option ShiftRecord) (f : FrameNo) : List Byte :=
  match r with
  | some x => halfBytes x.number ++ bytesOf 4 x.openSeconds.toNat ++ [recordCode x.state] ++
      shiftEntryBytes (x.entries.get f)
  | none => List.replicate 59 0

/-- The record a selector names: 0 the current one, 1 to 4 the ring positions (R164). -/
def State.shiftAt (s : State) (n : Nat) : Option ShiftRecord :=
  if n = 0 then some s.sc.current else s.sc.history[n - 1]?

/-- The time left on the moderation timer in 10 ms, none once expired (R167). -/
def moderationLeft : Timer → Option Nat
  | .running n => some n
  | _ => none

/-- The notice state item (R174, 11.4). -/
def State.noticeItem (s : State) : List Byte :=
  [s.mu.latched, s.mu.row.enables, s.mu.told] ++ presentNat (moderationLeft s.mu.moderation)

/-- A port record of 12 bytes (11.4). -/
def portBytes (r : PortRecord) : List Byte :=
  bytesOf 4 r.received.toNat ++ bytesOf 4 r.checkErrors.toNat ++ bytesOf 4 r.forwardsDropped.toNat

/-- The set of frames whose records failed, bit f for frame f. -/
def failedFrames (v : Vector Bool 4) : Byte :=
  (if v[0] then 1 else 0) ||| (if v[1] then 2 else 0) ||| (if v[2] then 4 else 0) |||
    (if v[3] then 8 else 0)

/-- The settings item (R177, R178, 11.4). -/
def State.settingsItem (s : State) : List Byte :=
  [flagByte s.mu.load.rowFailed, failedFrames s.mu.load.framesFailed] ++
    bytesOf 2 s.mu.load.wordsFailed ++ addressBytes s.mu.load.firstWord ++
    [saveCode s.mu.save, flagByte (s.mu.save == .inFlight)]

/-! ### READ (R167) -/

/-- The fields of a READ after its item. -/
structure ReadFields where
  selector1 : Byte
  selector2 : Byte
  start : Nat
  count : Nat
  deriving DecidableEq, Repr

/-- The answer to a READ: the item's data, or a refusal. -/
inductive ReadResult
  | data (bs : List Byte)
  | refused (r : Reason)
  deriving DecidableEq, Repr

/-- Tests made in order; the first that holds gives the refusal. -/
def firstOf : List (Bool × Reason) → Option Reason
  | [] => none
  | x :: xs => if x.1 then some x.2 else firstOf xs

/-- Data after tests (R167). -/
def answerAfter (tests : List (Bool × Reason)) (bs : List Byte) : ReadResult :=
  match firstOf tests with
  | some r => .refused r
  | none => .data bs

/-- READ of a frame (R167). -/
def State.readFrameItem (s : State) (x : ReadFields) : ReadResult :=
  match frameNo? x.selector1 with
  | none => .refused .badField
  | some f => answerAfter [(1 < x.selector2.toNat, .badField)]
      (if x.selector2 = 0 then frameRecordBytes (s.record f) else s.frameItems f)

/-- READ of step words (R99, R167). -/
def State.readWords (s : State) (x : ReadFields) : ReadResult :=
  answerAfter [(x.count == 0 || 7 < x.count || 512 < x.start + x.count, .badField)]
    ((numbersFrom x.start x.count).flatMap fun a => stepWordBytes (s.stepAt a))

/-- READ of a station record (R19). -/
def State.readStation (s : State) (x : ReadFields) : ReadResult :=
  match s.stationAt x.selector1 with
  | some r => .data (stationBytes r)
  | none => .refused .notInUse

/-- READ of spindle records (R77). -/
def State.readSpindles (s : State) (x : ReadFields) : ReadResult :=
  match frameNo? x.selector1 with
  | none => .refused .badField
  | some f => answerAfter
      [(!s.inUse f, .notInUse),
        (x.count == 0 || 5 < x.count || 2 * s.perSide f < x.start + x.count, .badField)]
      (s.spindleItem f x.start x.count)

/-- READ of bay records (R153). -/
def State.readBays (s : State) (x : ReadFields) : ReadResult :=
  match frameNo? x.selector1, side? x.selector2 with
  | some f, some sd => answerAfter
      [(!s.inUse f, .notInUse),
        (x.count == 0 || 8 < x.count || s.perSide f / 48 < x.start + x.count, .badField)]
      (s.bayItem f sd x.start x.count)
  | _, _ => .refused .badField

/-- READ of a carriage record (R96). -/
def State.readCarriageItem (s : State) (x : ReadFields) : ReadResult :=
  match frameNo? x.selector1, side? x.selector2 with
  | some f, some sd => answerAfter
      [(!s.inService f sd, .notInUse), (1 < x.count, .badField)]
      (carriageItem (s.carriage f sd) x.count)
  | _, _ => .refused .badField

/-- READ of a channel (R123). -/
def State.readChannelItem (s : State) (x : ReadFields) : ReadResult :=
  match channelNo? x.selector1 with
  | none => .refused .badField
  | some ch => .data (channelItem (s.channel ch))

/-- READ of the call list (R153). -/
def State.readCalls (s : State) (x : ReadFields) : ReadResult :=
  answerAfter [(7 < x.selector1.toNat, .badField)] (s.callItem x.selector1.toNat)

/-- READ of a shift record (R164). -/
def State.readShift (s : State) (x : ReadFields) : ReadResult :=
  match frameNo? x.selector2 with
  | none => .refused .badField
  | some f => answerAfter [(4 < x.selector1.toNat, .badField)]
      (shiftItem (s.shiftAt x.selector1.toNat) f)

/-- READ by item code; a code that names no item is refused BAD FIELD (R167). -/
def State.readItem (s : State) (item : Byte) (x : ReadFields) : ReadResult :=
  match item with
  | 1#8 => .data (rowTableBytes s.mu.row)
  | 2#8 => s.readFrameItem x
  | 3#8 => s.readWords x
  | 4#8 => s.readStation x
  | 5#8 => s.readSpindles x
  | 6#8 => s.readBays x
  | 7#8 => s.readCarriageItem x
  | 8#8 => s.readChannelItem x
  | 9#8 => .data s.doffItem
  | 10#8 => s.readCalls x
  | 11#8 => s.readShift x
  | 12#8 => .data s.noticeItem
  | 13#8 => .data (portBytes s.li.floorRecord ++ portBytes s.li.millRecord)
  | 14#8 => .data s.settingsItem
  | _ => .refused .badField

end Sys2Proof.Machine
end

