-- ==== Sys2Proof/Machine/Commits.lean ====
section
/-! DEFINITION. COMMIT: the tests in their order and what an accepted commit does, within its event
(R18, R35, R54, R80, R98, R100, R118, R128, R129, R137, R152, R171 to R173). -/

namespace Sys2Proof.Machine

/-- A settings save is in flight (R177). -/
def State.storeBusy (s : State) : Bool := s.mu.save == .inFlight

/-- The stage does not hold the number of bytes that the target takes (R171 order 3). -/
def State.stageShort (s : State) (n : Nat) : Bool := s.mu.stage.length != n

/-- The station addresses in use under tables: the train's and those of the first `n` frames. -/
def addressesInUse (train : Byte) (frames : Vector FrameRecord 4) (n : Nat) : List Byte :=
  train :: (frames.toList.take n).flatMap frameAddresses

/-- The tables in force hold one address twice among the frames in use and the train, which no commit
leaves behind but a torn save can (R177, R178). -/
def State.addressTwice (s : State) : Bool :=
  hasDuplicate (addressesInUse s.mu.row.trainAddress s.mu.frames s.mu.row.framesInUse.toNat)

/-- The frames that a new number in use makes leave. -/
def State.leaving (s : State) (n : Nat) : List FrameNo :=
  allFrames.filter fun f => n ≤ f.val && s.inUse f

/-- The frames that a new number in use makes enter. -/
def State.entering (s : State) (n : Nat) : List FrameNo :=
  allFrames.filter fun f => f.val < n && !s.inUse f

/-! ### Target ROW (R173) -/

/-- The tests of a ROW commit, orders 2 to 8 (R171, R173). -/
def State.rowTests (s : State) (new : RowTable) : List (Bool × Reason) :=
  let n := new.framesInUse.toNat
  [ (s.storeBusy, .storeBusy),
    (s.stageShort 16, .stageShort),
    (!rowInRange new || !rowSpareZero s.mu.stage || (s.entering n).any fun f => s.perSide f == 0,
      .badField),
    (hasDuplicate (addressesInUse new.trainAddress s.mu.frames n), .duplicateAddress),
    ((s.leaving n).any fun f => s.isDoffing f || s.served f, .inUse),
    (new.permitLimit.toNat < s.ds.permits, .limitInUse) ]

/-- A frame leaves use (R173): its reference is unset, its spindles and carriages cleared, its
request and calls removed, it is ABSENT with its flag clear, and a sequence running on its channel
ends STATION LOST. Its marks and its shift entry are kept. -/
def State.leaveUse (s : State) (f : FrameNo) : State :=
  let s1 := ((((s.unsetReference f).clearSpindles f).clearCarriages f).dropDoff f).dropFrameCalls f
  let s2 := s1.setFrameItem f ⟨.absent, false⟩
  if (s2.channel (frameChannel f)).state = .running then s2.cutSequence (frameChannel f) .stationLost
  else s2

/-- An accepted ROW commit (R173): the table, the leaving frames, the station table, the permits. -/
def State.applyRow (s : State) (new : RowTable) : State :=
  let old := s.mu.row
  let s1 := s.setMu { s.mu with row := new, stage := [] }
  let s2 := (s.leaving new.framesInUse.toNat).foldl State.leaveUse s1
  let s3 := if old.framesInUse = new.framesInUse ∧ old.trainAddress = new.trainAddress then s2
    else s2.rebuildStations
  if old.permitLimit.toNat < new.permitLimit.toNat then s3.permitArbiter else s3

/-! ### Target FRAME (R172) -/

/-- The frame records as they would stand after a FRAME commit. -/
def State.framesWith (s : State) (f : FrameNo) (new : FrameRecord) : Vector FrameRecord 4 :=
  putAt s.mu.frames f new

/-- The commit of a frame in use changes a geometry field (R172). -/
def State.geometryCommit (s : State) (f : FrameNo) (new : FrameRecord) : Bool :=
  s.inUse f && geometryChanged (s.record f) new

/-- The tests of a FRAME commit, orders 2 to 7 (R171, R172). -/
def State.frameTests (s : State) (f : FrameNo) (new : FrameRecord) : List (Bool × Reason) :=
  [ (s.storeBusy, .storeBusy),
    (s.stageShort 32, .stageShort),
    (!frameInRange new || !frameSpareZero s.mu.stage, .badField),
    (hasDuplicate (addressesInUse s.mu.row.trainAddress (s.framesWith f new)
        s.mu.row.framesInUse.toNat) || (!s.inUse f && hasDuplicate (frameAddresses new)),
      .duplicateAddress),
    (s.geometryCommit f new && s.served f, .inUse),
    (s.geometryCommit f new && !(s.frameState f == .standing || s.frameState f == .absent),
      .frameRunning) ]

/-- Addresses or spindles per side have changed: the frame is cleared, then the station table is
brought into line (R172; log 20). -/
def State.clearFrame (s : State) (f : FrameNo) : State :=
  (((((s.unsetReference f).clearSpindles f).clearCarriages f).clearBays f).dropDoff f).rebuildStations

/-- Another geometry field has changed: the reference is unset, the bays are full, and the starved
ones are called again, which evaluates the train arbiter once (R152, R172). -/
def State.refillBays (s : State) (f : FrameNo) : State :=
  let s1 := (s.unsetReference f).clearBays f
  let s2 := (frameBays f).foldl State.recallBay s1
  if s2.rc.calls.length = s1.rc.calls.length then s2 else s2.trainArbiter

/-- An accepted FRAME commit (R172). -/
def State.applyFrame (s : State) (f : FrameNo) (new : FrameRecord) : State :=
  let old := s.record f
  let s1 := s.setMu { s.mu with frames := s.framesWith f new, stage := [] }
  if layoutChanged old new then s1.clearFrame f
  else if geometryChanged old new then s1.refillBays f
  else s1

/-! ### Target STEPS (R100) -/

/-- A channel is RUNNING (R100). -/
def State.anyRunning (s : State) : Bool := s.se.channels.toList.any fun c => c.state == .running

/-- The tests of a STEPS commit, orders 1 to 6 (R100, R171). Every value of a step word's fields is in
range and every bit is a field's, so order 4 finds nothing. A STEPS commit changes no address, so order 5
tests the addresses in force. -/
def State.stepsTests (s : State) (a n : Nat) : List (Bool × Reason) :=
  [ (511 < a || n == 0 || 30 < n || 512 < a + n, .badField),
    (s.storeBusy, .storeBusy),
    (s.stageShort (8 * n), .stageShort),
    (s.addressTwice, .duplicateAddress),
    (s.anyRunning, .inUse) ]

/-- The words of a stage: bytes 8k to 8k + 7 are word k (11.3). -/
def stagedWords (stage : List Byte) (n : Nat) : List StepWord :=
  (numbersFrom 0 n).map fun k => stepWordOf ((stage.drop (8 * k)).take 8)

/-- An accepted STEPS commit writes its words from the address (R100). -/
def State.applySteps (s : State) (a n : Nat) : State :=
  (s.setSe { s.se with steps := putRun s.se.steps a (stagedWords s.mu.stage n) }).setMu
    { s.mu with stage := [] }

/-! ### COMMIT (R171) -/

/-- What a command comes to: accepted with a next state, or refused with a reason. -/
inductive Verdict
  | done (s : State)
  | refused (r : Reason)
  deriving DecidableEq, Repr

/-- A command after its tests: the first that holds refuses it and changes nothing. -/
def doneAfter (tests : List (Bool × Reason)) (s : State) : Verdict :=
  match firstOf tests with
  | some r => .refused r
  | none => .done s

/-- COMMIT of target ROW. -/
def State.commitRow (s : State) : Verdict :=
  doneAfter (s.rowTests (rowTableOf s.mu.stage)) (s.applyRow (rowTableOf s.mu.stage))

/-- COMMIT of target FRAME. -/
def State.commitFrame (s : State) (frame : Byte) : Verdict :=
  match frameNo? frame with
  | none => .refused .badField
  | some f => doneAfter (s.frameTests f (frameRecordOf s.mu.stage))
      (s.applyFrame f (frameRecordOf s.mu.stage))

/-- COMMIT of target STEPS. -/
def State.commitSteps (s : State) (a n : Nat) : Verdict := doneAfter (s.stepsTests a n) (s.applySteps a n)

/-- COMMIT by target code; an unknown target is refused BAD FIELD (R171). -/
def State.commit (s : State) (target frame : Byte) (a n : Nat) : Verdict :=
  match target with
  | 0#8 => s.commitRow
  | 1#8 => s.commitFrame frame
  | 2#8 => s.commitSteps a n
  | _ => .refused .badField

end Sys2Proof.Machine
end

