-- ==== Sys2Proof/Machine/Management.lean ====
section
/-! DEFINITION. Management telegrams: the order of R166, the commands' tests and effects, and the
replies (R13, R24, R27, R29, R76, R104, R121, R122, R127, R159, R166 to R168, R174, R177). The
part reset, which has no reply, stands in Resets.lean and Routing.lean. -/

namespace Sys2Proof.Machine

/-! ### Replies (11.2) -/

/-- A reply: PART mark, source 255, to the source of the telegram it answers (R8, R166). -/
def replyTo (t : Telegram) (kind : Byte) (body : List Byte) : Telegram := ⟨.part, t.src, 255, kind, body⟩

/-- The tag of a management telegram, 0 when it has none (R166). -/
def tagOf (t : Telegram) : Byte := byteAt t.body 0

def doneReply (t : Telegram) : Telegram := replyTo t kindDone [tagOf t, t.kind]

def refusedReply (t : Telegram) (r : Reason) : Telegram :=
  replyTo t kindRefused [tagOf t, t.kind, reasonCode r, 0]

def answerReply (t : Telegram) (bs : List Byte) : Telegram := replyTo t kindAnswer (tagOf t :: bs)

/-- The NOT PASSABLE refusal: tag 0, the refused kind, the refused telegram's destination (R9). -/
def notPassableReply (t : Telegram) : Telegram :=
  replyTo t kindRefused [0, t.kind, reasonCode .notPassable, t.dst]

/-! ### The commands -/

/-- STAGE CLEAR (R168). -/
def State.clearStage (s : State) : Verdict := .done (s.setMu { s.mu with stage := [] })

/-- STAGE (R168). -/
def State.stageBytes (s : State) (offset : Nat) (data : List Byte) : Verdict :=
  doneAfter
    [ (offset != s.mu.stage.length, .badOffset),
      (240 < s.mu.stage.length + data.length, .stageFull) ]
    (s.setMu { s.mu with stage := s.mu.stage ++ data })

/-- The flags of a mask cleared in one station record, or in every one for a selector of 0 (R24). -/
def clearFlags (mask selector : Byte) (r : StationRecord) : StationRecord :=
  if selector = 0 ∨ r.address = selector then { r with flags := r.flags.without mask } else r

/-- CLEAR CHANGES (R24). -/
def State.clearChanges (s : State) (mask selector : Byte) : Verdict :=
  doneAfter
    [ (selector != 0 && (s.stationAt selector).isNone, .notInUse),
      (mask.extractLsb' 4 4 != 0, .badField) ]
    (s.setSt (s.st.map (clearFlags mask selector)))

/-- ACK NOTICES (R174). -/
def State.ackNotices (s : State) (mask : Byte) : Verdict :=
  .done (s.setMu { s.mu with latched := s.mu.latched &&& ~~~mask, told := s.mu.told &&& ~~~mask })

/-- STATION RESET (R27). -/
def State.stationReset (s : State) (a : Byte) : Verdict :=
  match s.stationAt a with
  | none => .refused .notInUse
  | some r => .done (s.resetStation r).announceIdle

/-- STATION DISABLE; on a DISABLED station it changes nothing (R29). -/
def State.stationDisable (s : State) (a : Byte) : Verdict :=
  match s.stationAt a with
  | none => .refused .notInUse
  | some r => if r.link = .disabled then .done s else .done (s.disableStation r).announceIdle

/-- SPINDLE RELEASE (R76). -/
def State.spindleRelease (s : State) (frame : Byte) (p : Nat) : Verdict :=
  match frameNo? frame with
  | none => .refused .badField
  | some f => doneAfter
      [ (!s.inUse f, .notInUse),
        (2 * s.perSide f ≤ p, .badField),
        ((s.spindle f p).state != .locked, .notLocked) ]
      (s.releaseSpindle f p).announceIdle

/-- DOFF NOW (R127). -/
def State.doffNow (s : State) (frame : Byte) : Verdict :=
  match frameNo? frame with
  | none => .refused .badField
  | some f => doneAfter
      [ (!s.inUse f, .notInUse),
        (s.frameState f == .absent, .absent),
        (s.frameState f == .doffing, .doffing),
        (s.pendingDoff f, .pending),
        ((s.channel (frameChannel f)).state == .ended, .ended) ]
      (s.enterDoff f).permitArbiter.announceIdle

/-- The channel is a frame's whose frame is not in use (R104). -/
def State.channelOutOfUse (s : State) (ch : ChannelNo) : Bool :=
  match channelFrame ch with
  | some f => !s.inUse f
  | none => false

/-- START SEQUENCE (R104). -/
def State.startCommand (s : State) (channel : Byte) (a : Nat) : Verdict :=
  match channelNo? channel with
  | none => .refused .badField
  | some ch => doneAfter
      [ (511 < a, .badField),
        (s.channelOutOfUse ch, .notInUse),
        ((s.channel ch).state == .running, .busy),
        ((s.channel ch).state == .ended, .ended) ]
      (s.startByMill ch a).announceIdle

/-- HALT SEQUENCE (R122). -/
def State.haltCommand (s : State) (channel : Byte) : Verdict :=
  match channelNo? channel with
  | none => .refused .badField
  | some ch => doneAfter [((s.channel ch).state != .running, .notRunning)]
      (s.cutSequence ch .halted).announceIdle

/-- CLEAR ENDING (R121). -/
def State.clearEnding (s : State) (channel : Byte) : Verdict :=
  match channelNo? channel with
  | none => .refused .badField
  | some ch => doneAfter [((s.channel ch).state != .ended, .notEnded)] (s.clearEnded ch).announceIdle

/-- SHIFT CLOSE, which is never refused (R159). -/
def State.shiftClose (s : State) : Verdict := .done s.closeShift

/-- SAVE SETTINGS starts a save (R177). -/
def State.saveSettings (s : State) : Verdict :=
  doneAfter [(s.storeBusy, .storeBusy)] (s.setMu { s.mu with save := .inFlight })

/-- COMMIT, with the announcements of its event (R171). -/
def State.commitCommand (s : State) (body : List Byte) : Verdict :=
  match s.commit (byteAt body 1) (byteAt body 2) (halfAt body 3).toNat (byteAt body 5).toNat with
  | .done x => .done x.announceIdle
  | .refused r => .refused r

/-- A command by kind, its fields taken from the body after the tag (R180). READ and PART RESET are
no commands of this shape. -/
def State.command (s : State) (k : MgmtKind) (body : List Byte) : Verdict :=
  match k with
  | .read => .done s
  | .partReset => .done s
  | .stageClear => s.clearStage
  | .stage => s.stageBytes (byteAt body 1).toNat (body.drop 2)
  | .commit => s.commitCommand body
  | .clearChanges => s.clearChanges (byteAt body 1) (byteAt body 2)
  | .ackNotices => s.ackNotices (byteAt body 1)
  | .stationReset => s.stationReset (byteAt body 1)
  | .stationDisable => s.stationDisable (byteAt body 1)
  | .spindleRelease => s.spindleRelease (byteAt body 1) (halfAt body 2).toNat
  | .doffNow => s.doffNow (byteAt body 1)
  | .startSequence => s.startCommand (byteAt body 1) (halfAt body 2).toNat
  | .haltSequence => s.haltCommand (byteAt body 1)
  | .clearEnding => s.clearEnding (byteAt body 1)
  | .shiftClose => s.shiftClose
  | .saveSettings => s.saveSettings

/-- A command's verdict with its reply placed, then the owed notices told (R166, R175). -/
def State.settle (s : State) (t : Telegram) (v : Verdict) : State :=
  match v with
  | .done x => (x.queueReply (doneReply t)).tellNotices
  | .refused r => (s.queueReply (refusedReply t r)).tellNotices

/-- The fields of a READ telegram after its tag and item (R180). -/
def readFields (body : List Byte) : ReadFields where
  selector1 := byteAt body 2
  selector2 := byteAt body 3
  start := (halfAt body 4).toNat
  count := (byteAt body 6).toNat

/-- READ: one reply, and nothing else changes (R167). -/
def State.readReply (s : State) (t : Telegram) : State :=
  match s.readItem (byteAt t.body 1) (readFields t.body) with
  | .data bs => (s.queueReply (answerReply t bs)).tellNotices
  | .refused r => (s.queueReply (refusedReply t r)).tellNotices

end Sys2Proof.Machine
end

