-- ==== Sys2Proof/Machine/Resets.lean ====
section
/-! DEFINITION. The line reset (R10, R36, R59, R79, R97, R124, R139, R154, R165, R179), the
power-on reset with its load (R11, R178), and the settings store when a save is cut off or completes
(R177). -/

namespace Sys2Proof.Machine

/-! ### The settings store (R176, R177) -/

/-- A record of the store when a save is cut off after `p` records: those before the p-th hold the
new contents, the p-th a mixture, the others the old contents (R177). -/
def cutRecord {α : Type} (p k : Nat) (new : α) (old : Stored α) : Stored α :=
  if k < p then .intact new else if k = p then .torn else old

/-- A run of records of the store when a save is cut off; the first is record `base`. -/
def cutRecords {α : Type} {n : Nat} (p base : Nat) (new : Vector α n) (old : Vector (Stored α) n) :
    Vector (Stored α) n :=
  Vector.ofFn fun i => cutRecord p (base + i.val) (new.get i) (old.get i)

/-- The store after a save that was cut off once it had written `p` of its 517 records: the row
table, frame records 0 to 3, step words 0 to 511, in that order (R177). -/
def State.cutStore (s : State) (p : Nat) : SettingsStore where
  row := cutRecord p 0 s.mu.row s.mu.store.row
  frames := cutRecords p 1 s.mu.frames s.mu.store.frames
  words := cutRecords p 5 s.se.steps s.mu.store.words

/-- The store after a save that reached its completion (R177). -/
def State.savedStore (s : State) : SettingsStore where
  row := .intact s.mu.row
  frames := mapAll .intact s.mu.frames
  words := mapAll .intact s.se.steps

/-- A save in flight is cut off; how far it had come is a free value (R177, log 6). -/
def State.cutSave (s : State) : State :=
  if s.mu.save = .inFlight then
    (s.setMu { s.mu with
      save := .abandoned
      store := s.cutStore (Config.saveProgress s.choices).val }).setChoices (s.choices + 1)
  else s

/-- A save in flight completes (R177). With no save in flight nothing changes: no such event can come
(DESIGN CHOICE, log 35). -/
def State.completeSave (s : State) : State :=
  if s.mu.save = .inFlight then s.setMu { s.mu with save := .complete, store := s.savedStore } else s

/-! ### The line reset -/

/-- What the floor transmitter sends after a line reset: the telegram begun is sent to its end, its
completion not reported (R10 step 4). -/
def unreported : Option FloorSending → Option FloorSending
  | some (.order o _) => some (.order o false)
  | x => x

/-- The Line Interface at a line reset, steps 1 to 4 of R10. With the floor receiver in IDLE, mark
groups of a run not yet four long are dropped too (DESIGN CHOICE, log 32). -/
def LineInterface.reset (x : LineInterface) : LineInterface where
  floorRx := .idle
  millRx := x.millRx
  floorOrders := []
  millReplies := []
  floorForward := []
  millForward := []
  floorTx := unreported x.floorTx
  millTx := x.millTx
  floorRecord := .zero
  millRecord := .zero

/-- A delivery item at a line reset: the reference is unset (R59). -/
def DeliveryItem.reset (d : DeliveryItem) : DeliveryItem := { d with reference := none }

/-- A frame's spindles at a line reset (R79). -/
def FrameSpindles.reset (odo : Mm) (x : FrameSpindles) : FrameSpindles :=
  ⟨mapAll (lineResetRecord odo) x.records, 0⟩

/-- Every frame's spindles at a line reset (R79). -/
def State.resetSpindles (s : State) : Vector FrameSpindles 4 :=
  Vector.ofFn fun f => (s.spt.get f).reset (s.odometer f)

/-- A bay record at a line reset: the mark is kept (R154). -/
def BayRecord.reset (b : BayRecord) : BayRecord := ⟨b.mark, .none, none⟩

/-- The Management Unit at a line reset, but for the save (R179). -/
def ManagementUnit.reset (m : ManagementUnit) : ManagementUnit :=
  { m with stage := [], latched := 0, told := 0, moderation := .stopped }

/-- A line reset of the part: every block in its own way; the shift record, the tables in force and
the second timer are kept (R10, R36, R59, R79, R97, R124, R139, R154, R165, R179). -/
def State.lineReset (s : State) : State :=
  let s1 := s.cutSave
  { s1 with
    li := s1.li.reset
    st := s1.builtStations
    fm := Vector.replicate 4 ⟨.absent, false⟩
    di := mapAll DeliveryItem.reset s1.di
    spt := s1.resetSpindles
    pd := Vector.replicate 8 .fresh
    se := { s1.se with channels := Vector.replicate 5 .fresh }
    ds := { s1.ds with queue := [], permits := 0 }
    rc := ⟨mapAll BayRecord.reset s1.rc.bays, [], 0, none⟩
    mu := s1.mu.reset }

/-- A LINE RESET mark enters the emptied floor-bound forward queue, and an idle floor transmitter
takes it (R10 step 5). -/
def State.forwardMark (s : State) : State :=
  (s.setLi { s.li with floorForward := s.li.floorForward ++ [.lineReset] }).floorChoice

/-! ### The power-on reset (R11, R178) -/

/-- A row table as the load takes it: none when its complement or a field's range fails. -/
def loadRow : Stored RowTable → Option RowTable
  | .intact r => if rowInRange r then some r else none
  | .torn => none

/-- A frame record as the load takes it. -/
def loadFrame : Stored FrameRecord → Option FrameRecord
  | .intact r => if frameInRange r then some r else none
  | .torn => none

/-- A step word as the load takes it; every field of a step word is in range (R99). -/
def loadWord : Stored StepWord → Option StepWord
  | .intact w => some w
  | .torn => none

/-- The addresses of the step words that failed, ascending. -/
def failedWords (v : Vector (Stored StepWord) 512) : List Nat :=
  placesFrom (fun w => (loadWord w).isNone) 0 v.toList

/-- The load result of a store (R178). -/
def loadResult (x : SettingsStore) : LoadResult where
  rowFailed := (loadRow x.row).isNone
  framesFailed := mapAll (fun r => (loadFrame r).isNone) x.frames
  wordsFailed := (failedWords x.words).length
  firstWord := (failedWords x.words).head?

/-- A record failed at the load (R178). -/
def LoadResult.anyFailed (r : LoadResult) : Bool :=
  r.rowFailed || r.framesFailed.toList.any (fun b => b) || r.wordsFailed != 0

/-- The Line Interface after a power-on reset (R11). -/
def LineInterface.fresh : LineInterface :=
  ⟨.idle, .idle, [], [], [], [], none, none, .zero, .zero⟩

/-- The Management Unit after a power-on reset and the load of a store (R178, R179). -/
def loadedUnit (x : SettingsStore) : ManagementUnit where
  row := (loadRow x.row).getD .default
  frames := mapAll (fun r => (loadFrame r).getD .default) x.frames
  stage := []
  latched := if (loadResult x).anyFailed then noticeBit .settingsFault else 0
  told := 0
  moderation := .stopped
  store := x
  save := .none
  load := loadResult x

/-- The part after the power-on load of a store, before the station table is built. -/
def State.loaded (s : State) (x : SettingsStore) : State where
  li := .fresh
  st := []
  fm := Vector.replicate 4 ⟨.absent, false⟩
  di := Vector.replicate 4 ⟨0, 0, none, none⟩
  spt := Vector.replicate 4 .fresh
  pd := Vector.replicate 8 .fresh
  se := ⟨mapAll (fun w => (loadWord w).getD .endWord) x.words, Vector.replicate 5 .fresh⟩
  ds := ⟨[], Vector.replicate 4 0, 0⟩
  rc := ⟨Vector.replicate 128 .fresh, [], 0, none⟩
  sc := ⟨.fresh 1, [], .running 100⟩
  mu := loadedUnit x
  orders := s.orders
  choices := s.choices
  pending := s.pending

/-- The station table is built from the tables in force (R36). -/
def State.buildStations (s : State) : State := s.setSt s.builtStations

/-- A power-on reset: power lost during a save leaves the store as a line reset would (R177), the
load, the station table, the second timer, and SETTINGS FAULT told if it is owed (R11, R36, R58,
R78, R97, R124, R139, R154, R165, R178, R179). -/
def State.powerOn (s : State) : State :=
  let s1 := s.cutSave
  (s1.loaded s1.mu.store).buildStations.tellNotices

end Sys2Proof.Machine
end

