-- ==== Sys2Proof/Machine/Routing.lean ====
section
/-! DEFINITION. The routing of arrivals (R6 to R9, R13, R166), the Station Table's taking of a
consumed telegram (R21), the owners (R7), and the receivers of both ports (R2 to R5). -/

namespace Sys2Proof.Machine

/-! ### Forwards (R6, R8, R13) -/

/-- A floor arrival is forwarded to the mill, or dropped and counted, which latches FORWARD LOSS. -/
def State.forwardToMill (s : State) (t : Telegram) : State :=
  if s.li.millForward.length < 8 then
    (s.setLi { s.li with millForward := s.li.millForward ++ [t] }).millChoice
  else (s.countDropped .floor).latch .forwardLoss

/-- A mill arrival is forwarded to the floor, or dropped and counted. -/
def State.forwardToFloor (s : State) (t : Telegram) : State :=
  if s.li.floorForward.length < 8 then
    (s.setLi { s.li with floorForward := s.li.floorForward ++ [.telegram t] }).floorChoice
  else s.countDropped .mill

/-! ### A consumed floor telegram (R7, R21) -/

/-- A delivery report at the Frame Monitor and the Delivery Integrator; a wrong body is counted
(R38). -/
def State.takeDelivery (s : State) (r : StationRecord) (old : FrameState) (joined : Bool)
    (body : List Byte) : State :=
  match delivery? body, r.frame with
  | some b, some f => s.deliver f old b
  | _, _ => s.faultOfArrival r old joined

/-- A RESET REPORT outside RESETTING: a restart, or a wrong body that is counted (R21). -/
def State.takeReset (s : State) (r : StationRecord) (old : FrameState) (joined : Bool)
    (body : List Byte) : State :=
  if body = [] then (s.restarted r).announceDrive r old
  else s.faultOfArrival r old joined

/-- The owner of a telegram's kind takes it, after the Station Table (R7). A kind that is unknown,
or not the role's, is an error of the station. -/
def State.owned (s : State) (t : Telegram) (r : StationRecord) (old : FrameState) (joined : Bool) :
    State :=
  if kindAllowed t.kind r.role then
    match t.kind with
    | 0x10#8 => s.takeSection r t.body
    | 0x11#8 => s.takeDelivery r old joined t.body
    | 0x12#8 => s.takeCarriage r t.body
    | 0x13#8 => s.takeStep r old joined t.body
    | _ => s.takeReset r old joined t.body
  else s.faultOfArrival r old joined

/-- The telegram is a RESET REPORT whose body is right for its kind (R21, R180). -/
def isResetReport (t : Telegram) : Bool := t.kind == kindResetReport && t.body.isEmpty

/-- The Station Table takes a consumed telegram by its source's link state (R21). -/
def State.consume (s : State) (t : Telegram) (r : StationRecord) : State :=
  let old := s.stationFrameState r
  match r.link with
  | .active => (s.renewSilence r).owned t r old false
  | .resetting => if isResetReport t then (s.joinStation r).announceDrive r old else s
  | _ => (s.joinStation r).owned t r old true

/-- The routing of a floor telegram (R6). -/
def State.floorArrival (s : State) (t : Telegram) : State :=
  match t.mark with
  | .part => s
  | .pass => (s.forwardToMill t).tellNotices
  | .station =>
    if t.dst = 255 then
      match s.stationAt t.src with
      | some r => if r.link = .disabled then (s.forwardToMill t).tellNotices else (s.consume t r).endEvent
      | none => (s.forwardToMill t).tellNotices
    else s

/-! ### Mill arrivals (R8, R9, R13, R166) -/

/-- A management telegram for which the mill reply queue has room, in the order of R166. -/
def State.manage (s : State) (t : Telegram) : State :=
  match mgmtKind? t.kind with
  | none => s.settle t (.refused .badKind)
  | some k =>
    if mgmtLengthOk k t.body.length then
      match k with
      | .read => s.readReply t
      | .partReset => s.lineReset
      | k => s.settle t (s.command k t.body)
    else s.settle t (.refused .badLength)

/-- A management telegram; it is discarded when the mill reply queue is full (R13). -/
def State.management (s : State) (t : Telegram) : State := if s.replyRoom then s.manage t else s

/-- A STATION telegram to a station of the part is refused, if the queue has room (R9). -/
def State.refusePassage (s : State) (t : Telegram) : State :=
  if s.replyRoom then (s.queueReply (notPassableReply t)).tellNotices else s

/-- The routing of a mill telegram (R8). -/
def State.millArrival (s : State) (t : Telegram) : State :=
  match t.mark with
  | .part => s.management t
  | .pass => s.forwardToFloor t
  | .station =>
    match s.stationAt t.dst with
    | some r => if r.link = .disabled then s.forwardToFloor t else s.refusePassage t
    | none => s.forwardToFloor t

/-! ### Receivers -/

/-- What a receiver brings about: a discard is counted (R3, R4), an arrival is counted and routed
(R5 to R10). A LINE RESET mark on the floor is ignored, on the mill it resets the part and is
forwarded. -/
def State.takeEvent (p : Port) (s : State) (e : RxEvent) : State :=
  match e, p with
  | .discarded, p => s.countCheckError p
  | .telegram t, .floor => (s.countReceived .floor).floorArrival t
  | .telegram t, .mill => (s.countReceived .mill).millArrival t
  | .lineReset, .floor => s.countReceived .floor
  | .lineReset, .mill => (s.countReceived .mill).lineReset.forwardMark

/-- One code group at a port: the receiver moves first, then what it brought about is taken (R2). -/
def State.takeGroup (p : Port) (s : State) (g : Group) : State :=
  let x := (s.receiver p).take g
  x.2.foldl (State.takeEvent p) (s.setReceiver p x.1)

/-- Code groups at a port, one after another. -/
def State.feed (s : State) (p : Port) (gs : List Group) : State := gs.foldl (State.takeGroup p) s

/-- A telegram reaches a port whole. -/
def State.arrive (s : State) (p : Port) (t : Telegram) (e : TelegramEnd) : State :=
  s.feed p (arrivalGroups (s.receiver p) t e)

/-- A LINE RESET mark reaches a port. -/
def State.arriveMark (s : State) (p : Port) : State := s.feed p (markArrival (s.receiver p) .lineReset)

end Sys2Proof.Machine
end

