-- ==== Sys2Proof/Machine/Transmitters.lean ====
section
/-! DEFINITION. A transmitter finishes a telegram (R14): the completion is reported, then the next
entry is chosen. -/

namespace Sys2Proof.Machine

/-- The completion of an order is reported to the block that queued it (R14, R27, R88, R108). -/
def State.reportSent (s : State) (o : Order) : State :=
  match o.body with
  | .pieceOrder f sd _ _ => s.pieceSent f sd o.number
  | .stepCommand ch _ _ _ => s.stepSent ch o.number
  | .reset => s.resetSent o.station o.number
  | .parkOrder => s

/-- What the floor transmitter has finished is reported, if it is an order whose completion is still
reported (R10, R14). -/
def State.floorReport (s : State) (x : FloorSending) : State :=
  match x with
  | .order o true => s.reportSent o
  | .order _ false => s
  | .forward _ => s

/-- The floor transmitter finishes a telegram; one that sends fill does nothing (R14). -/
def State.floorSent (s : State) : State :=
  match s.li.floorTx with
  | none => s
  | some x => (((s.setLi { s.li with floorTx := none }).floorReport x).floorChoice).tellNotices

/-- The mill transmitter finishes a telegram; the place it frees may let a NOTICE in (R14, R175). -/
def State.millSent (s : State) : State :=
  match s.li.millTx with
  | none => s
  | some _ => ((s.setLi { s.li with millTx := none }).millChoice).tellNotices

/-- A port's transmitter finishes a telegram. -/
def State.sent (s : State) : Port → State
  | .floor => s.floorSent
  | .mill => s.millSent

/-- The floor transmitter is sending a PIECE ORDER. -/
def State.sendsPiece (s : State) : Bool :=
  match s.li.floorTx with
  | some (.order ⟨_, _, .pieceOrder _ _ _ _⟩ _) => true
  | _ => false

/-- The floor transmitter is sending a STEP COMMAND. -/
def State.sendsStep (s : State) : Bool :=
  match s.li.floorTx with
  | some (.order ⟨_, _, .stepCommand _ _ _ _⟩ _) => true
  | _ => false

/-- The floor transmitter is sending a RESET. -/
def State.sendsReset (s : State) : Bool :=
  match s.li.floorTx with
  | some (.order ⟨_, _, .reset⟩ _) => true
  | _ => false

end Sys2Proof.Machine
end

