-- ==== Sys2Proof/Machine/FloorRows.lean ====
section
/-! DEFINITION. The meanings of the rows of the floor port and of the line. -/

namespace Sys2Proof.Machine

/-- A floor telegram to the SRC-4, under the STATION mark (R6). -/
def floorTelegram (h : FloorHead) (kind : Byte) (body : List Byte) : Telegram :=
  ⟨.station, 255, h.src, kind, body⟩

/-- TELEGRAM_DISCARDED (R3, R4): the groups are received as they come. -/
def execTelegramDiscarded (port : Port) (groups : List Group) (s : State) :
    Host.Outcome State Fault Refusal :=
  .next (s.feed port groups)

/-- FLOOR_THROUGH_TRAFFIC (R6). -/
def execFloorThroughTraffic (t : Telegram) (ends : TelegramEnd) (s : State) :
    Host.Outcome State Fault Refusal :=
  .next (s.arrive .floor t ends)

/-- FLOOR_LOCAL_TRAFFIC (R6). -/
def execFloorLocalTraffic (u : FloorUnit) (s : State) : Host.Outcome State Fault Refusal :=
  match u with
  | .telegram t ends => .next (s.arrive .floor t ends)
  | .lineReset => .next (s.arriveMark .floor)

/-- UNKNOWN_KIND (R7). -/
def execUnknownKind (h : FloorHead) (kind : Byte) (body : List Byte) (s : State) :
    Host.Outcome State Fault Refusal :=
  .next (s.arrive .floor (floorTelegram h kind body) h.ends)

/-- SECTION_REPORT (R68, R69). -/
def execSectionReport (h : FloorHead) (body : List Byte) (s : State) :
    Host.Outcome State Fault Refusal :=
  .next (s.arrive .floor (floorTelegram h kindSectionReport body) h.ends)

/-- DELIVERY_REPORT (R38). -/
def execDeliveryReport (h : FloorHead) (body : List Byte) (s : State) :
    Host.Outcome State Fault Refusal :=
  .next (s.arrive .floor (floorTelegram h kindDeliveryReport body) h.ends)

/-- CARRIAGE_REPORT (R89). -/
def execCarriageReport (h : FloorHead) (body : List Byte) (s : State) :
    Host.Outcome State Fault Refusal :=
  .next (s.arrive .floor (floorTelegram h kindCarriageReport body) h.ends)

/-- STEP_REPORT (R114). -/
def execStepReport (h : FloorHead) (body : List Byte) (s : State) :
    Host.Outcome State Fault Refusal :=
  .next (s.arrive .floor (floorTelegram h kindStepReport body) h.ends)

/-- RESET_REPORT (R21). -/
def execResetReport (h : FloorHead) (body : List Byte) (s : State) :
    Host.Outcome State Fault Refusal :=
  .next (s.arrive .floor (floorTelegram h kindResetReport body) h.ends)

end Sys2Proof.Machine
end

