-- ==== Sys2Proof/Machine/MillRows.lean ====
section
/-! DEFINITION. The meanings of the rows of the mill port. -/

namespace Sys2Proof.Machine

/-- A management telegram, under the PART mark; the body begins with the tag (R166). -/
def millTelegram (h : MillHead) (kind : Byte) (rest : List Byte) : Telegram :=
  ⟨.part, h.dst, h.src, kind, h.tag :: rest⟩

/-- A READ of an item (R180). -/
def readTelegram (h : MillHead) (item : Byte) (rest : List Byte) : Telegram :=
  millTelegram h kindRead (item :: rest)

/-- A COMMIT of a target (R180). -/
def commitTelegram (h : MillHead) (target : Byte) (rest : List Byte) : Telegram :=
  millTelegram h kindCommit (target :: rest)

/-- LINE_RESET (R10): the mark arrives at the mill port. -/
def execLineReset (s : State) : Host.Outcome State Fault Refusal := .next (s.arriveMark .mill)

/-- NOT_PASSABLE (R9). -/
def execNotPassable (t : Telegram) (ends : TelegramEnd) (s : State) :
    Host.Outcome State Fault Refusal :=
  .next (s.arrive .mill t ends)

/-- MILL_THROUGH_TRAFFIC (R8). -/
def execMillThroughTraffic (t : Telegram) (ends : TelegramEnd) (s : State) :
    Host.Outcome State Fault Refusal :=
  .next (s.arrive .mill t ends)

/-- BAD_KIND (R166). -/
def execBadKind (t : Telegram) (ends : TelegramEnd) (s : State) :
    Host.Outcome State Fault Refusal :=
  .next (s.arrive .mill t ends)

/-- READ_ROW_TABLE (R169). -/
def execReadRowTable (h : MillHead) (rest : List Byte) (s : State) : Host.Outcome State Fault Refusal :=
  .next (s.arrive .mill (readTelegram h 1 rest) h.ends)

/-- READ_FRAME (R60, R167). -/
def execReadFrame (h : MillHead) (rest : List Byte) (s : State) : Host.Outcome State Fault Refusal :=
  .next (s.arrive .mill (readTelegram h 2 rest) h.ends)

/-- READ_STEP_WORDS (R99). -/
def execReadStepWords (h : MillHead) (rest : List Byte) (s : State) : Host.Outcome State Fault Refusal :=
  .next (s.arrive .mill (readTelegram h 3 rest) h.ends)

/-- READ_STATION_RECORD (R19). -/
def execReadStationRecord (h : MillHead) (rest : List Byte) (s : State) : Host.Outcome State Fault Refusal :=
  .next (s.arrive .mill (readTelegram h 4 rest) h.ends)

/-- READ_SPINDLE_RECORDS (R77). -/
def execReadSpindleRecords (h : MillHead) (rest : List Byte) (s : State) : Host.Outcome State Fault Refusal :=
  .next (s.arrive .mill (readTelegram h 5 rest) h.ends)

/-- READ_BAY_RECORDS (R153). -/
def execReadBayRecords (h : MillHead) (rest : List Byte) (s : State) : Host.Outcome State Fault Refusal :=
  .next (s.arrive .mill (readTelegram h 6 rest) h.ends)

/-- READ_CARRIAGE_RECORD (R96). -/
def execReadCarriageRecord (h : MillHead) (rest : List Byte) (s : State) : Host.Outcome State Fault Refusal :=
  .next (s.arrive .mill (readTelegram h 7 rest) h.ends)

/-- READ_CHANNEL (R123). -/
def execReadChannel (h : MillHead) (rest : List Byte) (s : State) : Host.Outcome State Fault Refusal :=
  .next (s.arrive .mill (readTelegram h 8 rest) h.ends)

/-- READ_DOFF_QUEUE (R138). -/
def execReadDoffQueue (h : MillHead) (rest : List Byte) (s : State) : Host.Outcome State Fault Refusal :=
  .next (s.arrive .mill (readTelegram h 9 rest) h.ends)

/-- READ_CALL_LIST (R153). -/
def execReadCallList (h : MillHead) (rest : List Byte) (s : State) : Host.Outcome State Fault Refusal :=
  .next (s.arrive .mill (readTelegram h 10 rest) h.ends)

/-- READ_SHIFT_RECORD (R164). -/
def execReadShiftRecord (h : MillHead) (rest : List Byte) (s : State) : Host.Outcome State Fault Refusal :=
  .next (s.arrive .mill (readTelegram h 11 rest) h.ends)

/-- READ_NOTICE_STATE (R167, R175). -/
def execReadNoticeState (h : MillHead) (rest : List Byte) (s : State) : Host.Outcome State Fault Refusal :=
  .next (s.arrive .mill (readTelegram h 12 rest) h.ends)

/-- READ_PORT_RECORDS (R5). -/
def execReadPortRecords (h : MillHead) (rest : List Byte) (s : State) : Host.Outcome State Fault Refusal :=
  .next (s.arrive .mill (readTelegram h 13 rest) h.ends)

/-- READ_SETTINGS (R177, R178). -/
def execReadSettings (h : MillHead) (rest : List Byte) (s : State) : Host.Outcome State Fault Refusal :=
  .next (s.arrive .mill (readTelegram h 14 rest) h.ends)

/-- COMMIT_ROW (R171, R173). -/
def execCommitRow (h : MillHead) (rest : List Byte) (s : State) : Host.Outcome State Fault Refusal :=
  .next (s.arrive .mill (commitTelegram h 0 rest) h.ends)

/-- COMMIT_FRAME (R171, R172). -/
def execCommitFrame (h : MillHead) (rest : List Byte) (s : State) : Host.Outcome State Fault Refusal :=
  .next (s.arrive .mill (commitTelegram h 1 rest) h.ends)

/-- COMMIT_STEPS (R100, R171). -/
def execCommitSteps (h : MillHead) (rest : List Byte) (s : State) : Host.Outcome State Fault Refusal :=
  .next (s.arrive .mill (commitTelegram h 2 rest) h.ends)

/-- STAGE_CLEAR (R168). -/
def execStageClear (h : MillHead) (rest : List Byte) (s : State) : Host.Outcome State Fault Refusal :=
  .next (s.arrive .mill (millTelegram h kindStageClear rest) h.ends)

/-- STAGE (R168). -/
def execStage (h : MillHead) (rest : List Byte) (s : State) : Host.Outcome State Fault Refusal :=
  .next (s.arrive .mill (millTelegram h kindStage rest) h.ends)

/-- CLEAR_CHANGES (R24). -/
def execClearChanges (h : MillHead) (rest : List Byte) (s : State) : Host.Outcome State Fault Refusal :=
  .next (s.arrive .mill (millTelegram h kindClearChanges rest) h.ends)

/-- ACK_NOTICES (R174). -/
def execAckNotices (h : MillHead) (rest : List Byte) (s : State) : Host.Outcome State Fault Refusal :=
  .next (s.arrive .mill (millTelegram h kindAckNotices rest) h.ends)

/-- STATION_RESET (R27). -/
def execStationReset (h : MillHead) (rest : List Byte) (s : State) : Host.Outcome State Fault Refusal :=
  .next (s.arrive .mill (millTelegram h kindStationReset rest) h.ends)

/-- STATION_DISABLE (R29). -/
def execStationDisable (h : MillHead) (rest : List Byte) (s : State) : Host.Outcome State Fault Refusal :=
  .next (s.arrive .mill (millTelegram h kindStationDisable rest) h.ends)

/-- SPINDLE_RELEASE (R76). -/
def execSpindleRelease (h : MillHead) (rest : List Byte) (s : State) : Host.Outcome State Fault Refusal :=
  .next (s.arrive .mill (millTelegram h kindSpindleRelease rest) h.ends)

/-- DOFF_NOW (R127). -/
def execDoffNow (h : MillHead) (rest : List Byte) (s : State) : Host.Outcome State Fault Refusal :=
  .next (s.arrive .mill (millTelegram h kindDoffNow rest) h.ends)

/-- START_SEQUENCE (R104). -/
def execStartSequence (h : MillHead) (rest : List Byte) (s : State) : Host.Outcome State Fault Refusal :=
  .next (s.arrive .mill (millTelegram h kindStartSequence rest) h.ends)

/-- HALT_SEQUENCE (R122). -/
def execHaltSequence (h : MillHead) (rest : List Byte) (s : State) : Host.Outcome State Fault Refusal :=
  .next (s.arrive .mill (millTelegram h kindHaltSequence rest) h.ends)

/-- CLEAR_ENDING (R121). -/
def execClearEnding (h : MillHead) (rest : List Byte) (s : State) : Host.Outcome State Fault Refusal :=
  .next (s.arrive .mill (millTelegram h kindClearEnding rest) h.ends)

/-- SHIFT_CLOSE (R159). -/
def execShiftClose (h : MillHead) (rest : List Byte) (s : State) : Host.Outcome State Fault Refusal :=
  .next (s.arrive .mill (millTelegram h kindShiftClose rest) h.ends)

/-- SAVE_SETTINGS (R177). -/
def execSaveSettings (h : MillHead) (rest : List Byte) (s : State) : Host.Outcome State Fault Refusal :=
  .next (s.arrive .mill (millTelegram h kindSaveSettings rest) h.ends)

/-- PART_RESET (R10, R179). -/
def execPartReset (h : MillHead) (rest : List Byte) (s : State) : Host.Outcome State Fault Refusal :=
  .next (s.arrive .mill (millTelegram h kindPartReset rest) h.ends)

end Sys2Proof.Machine
end

