-- ==== Sys2Proof/Machine/EventRows.lean ====
section
/-! DEFINITION. The meanings of the rows that no telegram brings: the power-on reset, the save's
completion, the transmitters and the timers. -/

namespace Sys2Proof.Machine

/-- POWER_ON_RESET (R11, R178). -/
def execPowerOnReset (s : State) : Host.Outcome State Fault Refusal := .next s.powerOn

/-- SAVE_COMPLETION (R177). -/
def execSaveCompletion (s : State) : Host.Outcome State Fault Refusal := .next s.completeSave

/-- TELEGRAM_SENT (R14). -/
def execTelegramSent (port : Port) (s : State) : Host.Outcome State Fault Refusal := .next (s.sent port)

/-- PIECE_ORDER_COMPLETION (R88): the floor transmitter finishes a PIECE ORDER (log 12). -/
def execPieceOrderCompletion (s : State) : Host.Outcome State Fault Refusal :=
  .next (if s.sendsPiece then s.floorSent else s)

/-- STEP_COMMAND_COMPLETION (R108): the floor transmitter finishes a STEP COMMAND (log 12). -/
def execStepCommandCompletion (s : State) : Host.Outcome State Fault Refusal :=
  .next (if s.sendsStep then s.floorSent else s)

/-- RESET_COMPLETION (R27): the floor transmitter finishes a RESET (log 12). -/
def execResetCompletion (s : State) : Host.Outcome State Fault Refusal :=
  .next (if s.sendsReset then s.floorSent else s)

/-- The silence timer of the station at an address expires (R22). -/
def State.silenceAt (s : State) (a : Byte) : State :=
  match s.stationAt a with
  | some r => (s.silenceExpired r).endEvent
  | none => s

/-- SILENCE_TIMER_EXPIRY (R22). -/
def execSilenceTimerExpiry (address : Byte) (s : State) : Host.Outcome State Fault Refusal :=
  .next (s.silenceAt address)

/-- The reset wait of the station at an address expires (R28). -/
def State.resetWaitAt (s : State) (a : Byte) : State :=
  match s.stationAt a with
  | some r => (s.resetWaitExpired r).endEvent
  | none => s

/-- RESET_WAIT_EXPIRY (R28). -/
def execResetWaitExpiry (address : Byte) (s : State) : Host.Outcome State Fault Refusal :=
  .next (s.resetWaitAt address)

/-- PIECING_TIMER_EXPIRY (R92). -/
def execPiecingTimerExpiry (frame : FrameNo) (side : Side) (s : State) :
    Host.Outcome State Fault Refusal :=
  .next (s.piecingExpiry frame side).endEvent

/-- PARK_TIMER_EXPIRY (R93). -/
def execParkTimerExpiry (frame : FrameNo) (side : Side) (s : State) :
    Host.Outcome State Fault Refusal :=
  .next (s.parkExpiry frame side).endEvent

/-- STEP_TIMER_EXPIRY (R117). -/
def execStepTimerExpiry (channel : ChannelNo) (s : State) : Host.Outcome State Fault Refusal :=
  .next (s.stepExpiry channel).endEvent

/-- SECOND_TIMER_EXPIRY (R157). -/
def execSecondTimerExpiry (s : State) : Host.Outcome State Fault Refusal := .next s.secondExpiry

/-- The moderation timer expires, and the NOTICE of what is owed follows (R175). -/
def State.moderationExpiry (s : State) : State :=
  if s.mu.moderation.runs then (s.setMu { s.mu with moderation := .stopped }).tellNotices else s

/-- MODERATION_TIMER_EXPIRY (R175). -/
def execModerationTimerExpiry (s : State) : Host.Outcome State Fault Refusal := .next s.moderationExpiry

/-! ### Time (log 2) -/

/-- A station's link timer loses 10 ms. -/
def StationRecord.pass (r : StationRecord) : StationRecord := { r with timer := r.timer.pass }

/-- A carriage's two timers lose 10 ms. -/
def CarriageRecord.pass (c : CarriageRecord) : CarriageRecord :=
  { c with piecing := c.piecing.pass, park := c.park.pass }

/-- A channel's step timer loses 10 ms. -/
def Channel.pass (c : Channel) : Channel := { c with timer := c.timer.pass }

/-- 10 ms pass: every running timer loses one unit, and nothing else changes (log 2). -/
def State.tick (s : State) : State :=
  { s with
    st := s.st.map StationRecord.pass
    pd := mapAll CarriageRecord.pass s.pd
    se := { s.se with channels := mapAll Channel.pass s.se.channels }
    sc := { s.sc with second := s.sc.second.pass }
    mu := { s.mu with moderation := s.mu.moderation.pass } }

end Sys2Proof.Machine
end

