-- ==== Sys2Proof/Machine/Dispatch.lean ====
section
/-! DEFINITION. One arm for each command: its meaning. -/

namespace Sys2Proof.Machine

def exec (i : Instr) (s : State) : Host.Outcome State Fault Refusal :=
  match i with
  | .powerOnReset => Sys2Proof.Machine.execPowerOnReset s
  | .lineReset => Sys2Proof.Machine.execLineReset s
  | .telegramDiscarded port groups => Sys2Proof.Machine.execTelegramDiscarded port groups s
  | .floorThroughTraffic t ends => Sys2Proof.Machine.execFloorThroughTraffic t ends s
  | .floorLocalTraffic u => Sys2Proof.Machine.execFloorLocalTraffic u s
  | .unknownKind h kind body => Sys2Proof.Machine.execUnknownKind h kind body s
  | .sectionReport h body => Sys2Proof.Machine.execSectionReport h body s
  | .deliveryReport h body => Sys2Proof.Machine.execDeliveryReport h body s
  | .carriageReport h body => Sys2Proof.Machine.execCarriageReport h body s
  | .stepReport h body => Sys2Proof.Machine.execStepReport h body s
  | .resetReport h body => Sys2Proof.Machine.execResetReport h body s
  | .notPassable t ends => Sys2Proof.Machine.execNotPassable t ends s
  | .millThroughTraffic t ends => Sys2Proof.Machine.execMillThroughTraffic t ends s
  | .badKind t ends => Sys2Proof.Machine.execBadKind t ends s
  | .readRowTable h rest => Sys2Proof.Machine.execReadRowTable h rest s
  | .readFrame h rest => Sys2Proof.Machine.execReadFrame h rest s
  | .readStepWords h rest => Sys2Proof.Machine.execReadStepWords h rest s
  | .readStationRecord h rest => Sys2Proof.Machine.execReadStationRecord h rest s
  | .readSpindleRecords h rest => Sys2Proof.Machine.execReadSpindleRecords h rest s
  | .readBayRecords h rest => Sys2Proof.Machine.execReadBayRecords h rest s
  | .readCarriageRecord h rest => Sys2Proof.Machine.execReadCarriageRecord h rest s
  | .readChannel h rest => Sys2Proof.Machine.execReadChannel h rest s
  | .readDoffQueue h rest => Sys2Proof.Machine.execReadDoffQueue h rest s
  | .readCallList h rest => Sys2Proof.Machine.execReadCallList h rest s
  | .readShiftRecord h rest => Sys2Proof.Machine.execReadShiftRecord h rest s
  | .readNoticeState h rest => Sys2Proof.Machine.execReadNoticeState h rest s
  | .readPortRecords h rest => Sys2Proof.Machine.execReadPortRecords h rest s
  | .readSettings h rest => Sys2Proof.Machine.execReadSettings h rest s
  | .stageClear h rest => Sys2Proof.Machine.execStageClear h rest s
  | .stage h rest => Sys2Proof.Machine.execStage h rest s
  | .commitRow h rest => Sys2Proof.Machine.execCommitRow h rest s
  | .commitFrame h rest => Sys2Proof.Machine.execCommitFrame h rest s
  | .commitSteps h rest => Sys2Proof.Machine.execCommitSteps h rest s
  | .clearChanges h rest => Sys2Proof.Machine.execClearChanges h rest s
  | .ackNotices h rest => Sys2Proof.Machine.execAckNotices h rest s
  | .stationReset h rest => Sys2Proof.Machine.execStationReset h rest s
  | .stationDisable h rest => Sys2Proof.Machine.execStationDisable h rest s
  | .spindleRelease h rest => Sys2Proof.Machine.execSpindleRelease h rest s
  | .doffNow h rest => Sys2Proof.Machine.execDoffNow h rest s
  | .startSequence h rest => Sys2Proof.Machine.execStartSequence h rest s
  | .haltSequence h rest => Sys2Proof.Machine.execHaltSequence h rest s
  | .clearEnding h rest => Sys2Proof.Machine.execClearEnding h rest s
  | .shiftClose h rest => Sys2Proof.Machine.execShiftClose h rest s
  | .saveSettings h rest => Sys2Proof.Machine.execSaveSettings h rest s
  | .saveCompletion => Sys2Proof.Machine.execSaveCompletion s
  | .partReset h rest => Sys2Proof.Machine.execPartReset h rest s
  | .telegramSent port => Sys2Proof.Machine.execTelegramSent port s
  | .pieceOrderCompletion => Sys2Proof.Machine.execPieceOrderCompletion s
  | .stepCommandCompletion => Sys2Proof.Machine.execStepCommandCompletion s
  | .resetCompletion => Sys2Proof.Machine.execResetCompletion s
  | .silenceTimerExpiry address => Sys2Proof.Machine.execSilenceTimerExpiry address s
  | .resetWaitExpiry address => Sys2Proof.Machine.execResetWaitExpiry address s
  | .piecingTimerExpiry frame side => Sys2Proof.Machine.execPiecingTimerExpiry frame side s
  | .parkTimerExpiry frame side => Sys2Proof.Machine.execParkTimerExpiry frame side s
  | .stepTimerExpiry channel => Sys2Proof.Machine.execStepTimerExpiry channel s
  | .secondTimerExpiry => Sys2Proof.Machine.execSecondTimerExpiry s
  | .moderationTimerExpiry => Sys2Proof.Machine.execModerationTimerExpiry s

end Sys2Proof.Machine
end

