-- ==== Sys2Proof/Machine/Step.lean ====
section
/-! DEFINITION. One step: the command at the front of the queue, or 10 ms of time. -/

namespace Sys2Proof.Machine

/-- The command at the front of the queue is taken, with the queue's rest; on an empty queue 10 ms
pass (log 2). -/
def step (s : State) : Host.Outcome State Fault Refusal :=
  match s.pending with
  | [] => .next s.tick
  | c :: rest => exec c (s.setPending rest)

/-- No row of the table gives bits, so no word spells a command and the state is unchanged. -/
def State.withFetchWord (s : State) (_nbits _w : Nat) : State := s

end Sys2Proof.Machine
end

