-- ==== Sys2Proof/WellFormed.lean ====
section
/-! DEFINITION. Which commands are well formed: what the line can carry, and that the telegram is
one of the row's. A command that is not well formed still has its meaning (log 27). -/

namespace Sys2Proof

open Sys2Proof.Machine

/-- A body fits its length byte (1.3: 0–60). -/
def bodyFits (n : Nat) : Bool := n ≤ 60

/-- Traffic that the floor port may forward: PASS, or STATION to 255 (R6). -/
def floorPasses (t : Telegram) : Bool := t.mark == .pass || (t.mark == .station && t.dst == 255)

/-- Traffic that the floor port ignores: PART, or STATION to another address (R6). -/
def floorIgnores (t : Telegram) : Bool := t.mark == .part || (t.mark == .station && t.dst != 255)

/-- A floor unit of FLOOR_LOCAL_TRAFFIC (R6). -/
def FloorUnit.wf : FloorUnit → Bool
  | .telegram t _ => bodyFits t.body.length && floorIgnores t
  | .lineReset => true

/-- A mill STATION telegram to an address that a station may have (R8, R9). -/
def millStation (t : Telegram) : Bool := t.mark == .station && t.dst != 0 && t.dst != 255

/-- Traffic that the mill port may forward: PASS or STATION (R8). -/
def millPasses (t : Telegram) : Bool := t.mark == .pass || t.mark == .station

/-- A READ item code that has a row (R167). -/
def readItemHasRow (item : Byte) : Bool := 1 ≤ item.toNat && item.toNat ≤ 14

/-- A COMMIT target code that has a row (R171). -/
def commitTargetHasRow (target : Byte) : Bool := target.toNat ≤ 2

/-- A row other than BAD_KIND names the PART telegram: its kind is a management kind, it has a tag,
and a READ or COMMIT has an item or target with a row (R166, R167, R171). -/
def hasOtherRow (t : Telegram) : Bool :=
  match mgmtKind? t.kind with
  | none => false
  | some .read => 2 ≤ t.body.length && readItemHasRow (byteAt t.body 1)
  | some .commit => 2 ≤ t.body.length && commitTargetHasRow (byteAt t.body 1)
  | some _ => 1 ≤ t.body.length

/-- A telegram of BAD_KIND: a PART telegram that no other row names. -/
def badKindTelegram (t : Telegram) : Bool := t.mark == .part && !hasOtherRow t

/-- Groups that end in exactly one discard, from a receiver in IDLE (R3, R4). -/
def discards (gs : List Group) : Bool := (Receiver.idle.takeAll gs).2 == [.discarded]

/-- A command is well formed. -/
def Instr.wf : Instr → Bool
  | .powerOnReset => true
  | .lineReset => true
  | .telegramDiscarded _ gs => discards gs
  | .floorThroughTraffic t _ => bodyFits t.body.length && floorPasses t
  | .floorLocalTraffic u => u.wf
  | .unknownKind _ _ body => bodyFits body.length
  | .sectionReport _ body => bodyFits body.length
  | .deliveryReport _ body => bodyFits body.length
  | .carriageReport _ body => bodyFits body.length
  | .stepReport _ body => bodyFits body.length
  | .resetReport _ body => bodyFits body.length
  | .notPassable t _ => bodyFits t.body.length && millStation t
  | .millThroughTraffic t _ => bodyFits t.body.length && millPasses t
  | .badKind t _ => bodyFits t.body.length && badKindTelegram t
  | .readRowTable _ rest => bodyFits (rest.length + 2)
  | .readFrame _ rest => bodyFits (rest.length + 2)
  | .readStepWords _ rest => bodyFits (rest.length + 2)
  | .readStationRecord _ rest => bodyFits (rest.length + 2)
  | .readSpindleRecords _ rest => bodyFits (rest.length + 2)
  | .readBayRecords _ rest => bodyFits (rest.length + 2)
  | .readCarriageRecord _ rest => bodyFits (rest.length + 2)
  | .readChannel _ rest => bodyFits (rest.length + 2)
  | .readDoffQueue _ rest => bodyFits (rest.length + 2)
  | .readCallList _ rest => bodyFits (rest.length + 2)
  | .readShiftRecord _ rest => bodyFits (rest.length + 2)
  | .readNoticeState _ rest => bodyFits (rest.length + 2)
  | .readPortRecords _ rest => bodyFits (rest.length + 2)
  | .readSettings _ rest => bodyFits (rest.length + 2)
  | .stageClear _ rest => bodyFits (rest.length + 1)
  | .stage _ rest => bodyFits (rest.length + 1)
  | .commitRow _ rest => bodyFits (rest.length + 2)
  | .commitFrame _ rest => bodyFits (rest.length + 2)
  | .commitSteps _ rest => bodyFits (rest.length + 2)
  | .clearChanges _ rest => bodyFits (rest.length + 1)
  | .ackNotices _ rest => bodyFits (rest.length + 1)
  | .stationReset _ rest => bodyFits (rest.length + 1)
  | .stationDisable _ rest => bodyFits (rest.length + 1)
  | .spindleRelease _ rest => bodyFits (rest.length + 1)
  | .doffNow _ rest => bodyFits (rest.length + 1)
  | .startSequence _ rest => bodyFits (rest.length + 1)
  | .haltSequence _ rest => bodyFits (rest.length + 1)
  | .clearEnding _ rest => bodyFits (rest.length + 1)
  | .shiftClose _ rest => bodyFits (rest.length + 1)
  | .saveSettings _ rest => bodyFits (rest.length + 1)
  | .saveCompletion => true
  | .partReset _ rest => bodyFits (rest.length + 1)
  | .telegramSent _ => true
  | .pieceOrderCompletion => true
  | .stepCommandCompletion => true
  | .resetCompletion => true
  | .silenceTimerExpiry a => a != 0 && a != 255
  | .resetWaitExpiry a => a != 0 && a != 255
  | .piecingTimerExpiry _ _ => true
  | .parkTimerExpiry _ _ => true
  | .stepTimerExpiry _ => true
  | .secondTimerExpiry => true
  | .moderationTimerExpiry => true

end Sys2Proof
end

