-- ==== Sys2Proof/Safety.lean ====
section
/-! DEFINITION. What the statements are said with: the part goes on; what its stores and tables may
hold in every state; the arrival that a command brings; what a reset, an ending, a completed step and
a departure leave. -/

namespace Sys2Proof.Machine

/-! ### Safe states -/

/-- The part goes on: the step from the state answers a next state. -/
def GoesOn (s : State) : Prop := ∃ t, step s = .next t

/-- The four queues, the stage, the history ring, the work lists and the doff queue are within their
capacities (R12, R81, R125, R163, R168). The call list is bounded by its own law. -/
def State.withinCapacity (s : State) : Bool :=
  s.li.floorOrders.length ≤ 32 && s.li.millReplies.length ≤ 8 && s.li.floorForward.length ≤ 8 &&
    s.li.millForward.length ≤ 8 && s.mu.stage.length ≤ 240 && s.sc.history.length ≤ 4 &&
    (s.pd.toList.all fun c => c.list.length ≤ 32) && s.ds.queue.length ≤ 4 && decide s.ds.queue.Nodup

/-- The tables in force hold only values that a commit or the power-on load could have put there:
every field in its range, or a frame record in its default form (R171, R178). -/
def State.tablesInRange (s : State) : Bool :=
  rowInRange s.mu.row && s.mu.frames.toList.all fun r => frameInRange r || r == .default

/-- The four values that a station record is matched on (R18). -/
def stationKey (r : StationRecord) : Byte × Role × Option FrameNo × Option Side :=
  (r.address, r.role, r.frame, r.side)

/-- The station table holds the records that the tables in force call for, in their order, and no
others (R17, R18). -/
abbrev State.stationsMatch (s : State) : Prop := s.st.map stationKey = s.builtStations.map stationKey

/-- Every order that waits is for a station whose link state allows its kind (R15). -/
abbrev State.ordersAllowed (s : State) : Prop :=
  ∀ o ∈ s.li.floorOrders, ∃ r ∈ s.st, r.address = o.station ∧ orderAllowed o.body r.link = true

/-- The order that the floor transmitter is sending, if it is sending one. -/
def sendingOrder : Option FloorSending → List Order
  | some (.order o _) => [o]
  | _ => []

/-- The numbers of the order in transmission and of the orders that wait differ, and none is a number
still to be given (log 10). -/
abbrev State.ordersNumbered (s : State) : Prop :=
  let numbers := (sendingOrder s.li.floorTx ++ s.li.floorOrders).map (·.number)
  numbers.Nodup ∧ ∀ n ∈ numbers, n < s.orders

/-- The orders that may wait for one block at a time (R15): one RESET for a station; and a STEP COMMAND
only for the step in hand of its channel, which waits for this very order (R108). -/
abbrev State.ordersSingle (s : State) : Prop :=
  (∀ a, (s.li.floorOrders.filter fun o => o.station == a && o.body == .reset).length ≤ 1) ∧
    ∀ o ∈ s.li.floorOrders, ∀ ch x y b, o.body = .stepCommand ch x y b →
      (s.channel ch).phase = some .waiting ∧ (s.channel ch).order = some o.number

/-- No frame stands twice in the doff queue, and none in it is DOFFING (R128). -/
abbrev State.doffLaw (s : State) : Prop :=
  s.ds.queue.Nodup ∧ ∀ f ∈ s.ds.queue, s.frameState f ≠ .doffing

/-- A channel's fields go together as R101 gives them: a step is in hand exactly while it is RUNNING, the
timer runs only where the phase lets it, and the addresses, the stack and the run count lie in their
ranges; an ENDED channel holds an ending that is not NORMAL (R120). -/
abbrev State.channelLaw (s : State) : Prop :=
  ∀ ch, let c := s.channel ch
    (c.state = .running ↔ c.phase ≠ none) ∧ (c.state = .running ↔ c.address ≠ none) ∧
      (c.state = .running ↔ c.cause ≠ none) ∧ (∀ a, c.address = some a → a ≤ 511) ∧
      (∀ i, c.stack.get i ≤ 512) ∧ c.runCount ≤ 16 ∧
      (c.timer ≠ .stopped → c.phase = some .sent ∨ c.phase = some .timing ∨ c.phase = some .watching) ∧
      (c.state = .ended → ∃ e, c.ending = some e ∧ e.condition ≠ .normal)

/-- A frame is DOFFING exactly while its channel walks a doff; the permits held are the frames in
DOFFING, and do not pass the limit in force (R33, R125). -/
abbrev State.permitLaw (s : State) : Prop :=
  (∀ f, s.frameState f = .doffing ↔ (s.channel (frameChannel f)).cause = some .doff) ∧
    s.ds.permits = (allFrames.filter s.isDoffing).length ∧
    s.ds.permits ≤ s.mu.row.permitLimit.toNat

/-- The call list holds exactly the PLANNED and URGENT bays, each once, all of them bays of a frame in
use; the SERVING bay is the current bay until its mark; there is a current bay exactly while the train
channel walks an exchange, and its frame is in use and not DOFFING (R140, R141, R144, R147). -/
abbrev State.callLaw (s : State) : Prop :=
  s.rc.calls.Nodup ∧ (∀ b, b ∈ s.rc.calls ↔ (s.bay b).cls = .planned ∨ (s.bay b).cls = .urgent) ∧
    (∀ b, (s.bay b).cls = .serving ↔ s.rc.current = some ⟨b, false⟩) ∧
    (∀ b, (s.bay b).cls ≠ .none → s.isBay b = true) ∧
    (s.rc.current ≠ none ↔ (s.channel trainChannel).cause = some .exchange) ∧
    ∀ c, s.rc.current = some c → s.isBay c.bay = true ∧ s.frameState c.bay.frame ≠ .doffing

/-- The running count is the number of RUNNING spindles; records beyond the frame's spindles are fresh; a
spindle is QUEUED exactly while it stands in its side's work list, which is in strictly ascending
position, and PIECING exactly while it is in its side's hand (R62, R64, R82). -/
abbrev State.spindleLaw (s : State) : Prop :=
  (∀ f, s.runningCount f = ((s.spt.get f).records.toList.filter fun r => r.state == .running).length) ∧
    (∀ f p, 2 * s.perSide f ≤ p → s.spindle f p = .fresh) ∧
    (∀ f sd, ((s.carriage f sd).list.map (·.position)).Pairwise (· < ·)) ∧
    (∀ f sd p, p ∈ (s.carriage f sd).list.map (·.position) ↔
      s.onSide f sd p = true ∧ (s.spindle f p).state = .queued) ∧
    ∀ f sd p, (∃ h, (s.carriage f sd).inHand = some h ∧ h.position = p) ↔
      s.onSide f sd p = true ∧ (s.spindle f p).state = .piecing

/-- The position of a list that a carriage at `a` reaches first: the nearest at or ahead of it in its
direction, or, with none there, the nearest behind it (R84, R86). -/
def reachedFirst (d : Direction) (a : Nat) (xs : List Nat) (p : Nat) : Prop :=
  p ∈ xs ∧ ∀ q ∈ xs, match d with
    | .up => if a ≤ p then a ≤ q → p ≤ q else q < a ∧ q ≤ p
    | .down => if p ≤ a then q ≤ a → q ≤ p else a < q ∧ p ≤ q

/-! ### Arrivals -/

/-- The port's receiver can take the telegram whole: it is in IDLE, or has just received the
telegram's mark as the end of the telegram before (R2); and the body fits the length byte (1.3). -/
abbrev State.ready (s : State) (p : Port) (t : Telegram) : Prop :=
  (s.receiver p = .idle ∨ s.receiver p = .begun t.mark) ∧ t.body.length ≤ 60

/-- A state after a telegram has ended and been counted, before it is routed (R2, R5). -/
def State.received (s : State) (p : Port) (e : TelegramEnd) : State :=
  (s.setReceiver p (endReceiver e)).countReceived p

/-- A LINE RESET mark that ended a telegram is an arrival of its own after it (R2, R6, R10). -/
def State.thenEnded (p : Port) (s : State) (e : TelegramEnd) : State :=
  match e, p with
  | .mark .lineReset, .floor => s.countReceived .floor
  | .mark .lineReset, .mill => (s.countReceived .mill).lineReset.forwardMark
  | _, _ => s

/-- The state after a telegram of an ACTIVE station has ended, been counted, and restarted the
station's silence timer (R2, R5, R20, R22). -/
def State.renewed (s : State) (h : FloorHead) (r : StationRecord) : State :=
  (s.received .floor h.ends).setSt (s.st.map fun q =>
    if q.address = h.src then { q with timer := .running (10 * silenceLimit s.mu.row r.role) } else q)

/-- A reply or refusal is placed, and the owed notices told (R13, R166, R175). -/
def State.replied (s : State) (t : Telegram) : State := (s.queueReply t).tellNotices

/-- The mill port can take the management telegram whole, and its reply has a place (R13). -/
abbrev State.takes (s : State) (t : Telegram) : Prop := s.ready .mill t ∧ s.replyRoom = true

/-- DONE to a management telegram (11.2). -/
def doneTo (h : MillHead) (kind : Byte) : Telegram := ⟨.part, h.src, 255, 0x61, [h.tag, kind]⟩

/-- REFUSED to a management telegram (11.2). -/
def refusedTo (h : MillHead) (kind : Byte) (r : Reason) : Telegram :=
  ⟨.part, h.src, 255, 0x62, [h.tag, kind, reasonCode r, 0]⟩

/-- ANSWER to a READ (11.2). -/
def answerTo (h : MillHead) (bs : List Byte) : Telegram := ⟨.part, h.src, 255, 0x60, h.tag :: bs⟩

/-- A management telegram's reply is placed, the owed notices are told, and the mark that ended the
telegram is taken. -/
def State.answers (s : State) (h : MillHead) (t : Telegram) : State :=
  State.thenEnded .mill (s.replied t) h.ends

/-- No AWAIT step of a frame channel waits for a condition. -/
abbrev State.unwatched (s : State) : Prop := ∀ f, (s.channel (frameChannel f)).phase ≠ some .watching

/-- The telegram that a command brings, with its port and the group that ends it. -/
def arrivalOf : Instr → Option (Port × Telegram × TelegramEnd)
  | .floorThroughTraffic t e => some (.floor, t, e)
  | .floorLocalTraffic (.telegram t e) => some (.floor, t, e)
  | .unknownKind h k b => some (.floor, floorTelegram h k b, h.ends)
  | .sectionReport h b => some (.floor, floorTelegram h kindSectionReport b, h.ends)
  | .deliveryReport h b => some (.floor, floorTelegram h kindDeliveryReport b, h.ends)
  | .carriageReport h b => some (.floor, floorTelegram h kindCarriageReport b, h.ends)
  | .stepReport h b => some (.floor, floorTelegram h kindStepReport b, h.ends)
  | .resetReport h b => some (.floor, floorTelegram h kindResetReport b, h.ends)
  | .notPassable t e => some (.mill, t, e)
  | .millThroughTraffic t e => some (.mill, t, e)
  | .badKind t e => some (.mill, t, e)
  | .readRowTable h r => some (.mill, readTelegram h 1 r, h.ends)
  | .readFrame h r => some (.mill, readTelegram h 2 r, h.ends)
  | .readStepWords h r => some (.mill, readTelegram h 3 r, h.ends)
  | .readStationRecord h r => some (.mill, readTelegram h 4 r, h.ends)
  | .readSpindleRecords h r => some (.mill, readTelegram h 5 r, h.ends)
  | .readBayRecords h r => some (.mill, readTelegram h 6 r, h.ends)
  | .readCarriageRecord h r => some (.mill, readTelegram h 7 r, h.ends)
  | .readChannel h r => some (.mill, readTelegram h 8 r, h.ends)
  | .readDoffQueue h r => some (.mill, readTelegram h 9 r, h.ends)
  | .readCallList h r => some (.mill, readTelegram h 10 r, h.ends)
  | .readShiftRecord h r => some (.mill, readTelegram h 11 r, h.ends)
  | .readNoticeState h r => some (.mill, readTelegram h 12 r, h.ends)
  | .readPortRecords h r => some (.mill, readTelegram h 13 r, h.ends)
  | .readSettings h r => some (.mill, readTelegram h 14 r, h.ends)
  | .stageClear h r => some (.mill, millTelegram h kindStageClear r, h.ends)
  | .stage h r => some (.mill, millTelegram h kindStage r, h.ends)
  | .commitRow h r => some (.mill, commitTelegram h 0 r, h.ends)
  | .commitFrame h r => some (.mill, commitTelegram h 1 r, h.ends)
  | .commitSteps h r => some (.mill, commitTelegram h 2 r, h.ends)
  | .clearChanges h r => some (.mill, millTelegram h kindClearChanges r, h.ends)
  | .ackNotices h r => some (.mill, millTelegram h kindAckNotices r, h.ends)
  | .stationReset h r => some (.mill, millTelegram h kindStationReset r, h.ends)
  | .stationDisable h r => some (.mill, millTelegram h kindStationDisable r, h.ends)
  | .spindleRelease h r => some (.mill, millTelegram h kindSpindleRelease r, h.ends)
  | .doffNow h r => some (.mill, millTelegram h kindDoffNow r, h.ends)
  | .startSequence h r => some (.mill, millTelegram h kindStartSequence r, h.ends)
  | .haltSequence h r => some (.mill, millTelegram h kindHaltSequence r, h.ends)
  | .clearEnding h r => some (.mill, millTelegram h kindClearEnding r, h.ends)
  | .shiftClose h r => some (.mill, millTelegram h kindShiftClose r, h.ends)
  | .saveSettings h r => some (.mill, millTelegram h kindSaveSettings r, h.ends)
  | .partReset h r => some (.mill, millTelegram h kindPartReset r, h.ends)
  | _ => none

/-! ### What a line reset leaves -/

/-- What a line reset keeps, and what it gives each block (R10, R36, R59, R79, R97, R124, R139,
R154, R165, R179): all but the Line Interface, the settings store and the save. -/
structure LineResetOf (s t : State) : Prop where
  stations : t.st = s.builtStations
  frames : ∀ f, t.fm.get f = ⟨.absent, false⟩
  delivery : ∀ f, t.di.get f = { s.di.get f with reference := none }
  running : ∀ f, t.runningCount f = 0
  spindles : ∀ f p, p < 1536 → t.spindle f p =
    { s.spindle f p with
      state := .unseen
      runMark := none
      attempts := 0
      rebreaks := 0
      cop := reportedCop (s.odometer f) (s.spindle f p) }
  carriages : ∀ f sd, t.carriage f sd = .fresh
  steps : t.se.steps = s.se.steps
  channels : ∀ ch, t.channel ch = .fresh
  doffs : t.ds = ⟨[], s.ds.marks, 0⟩
  bays : ∀ b, t.bay b = ⟨(s.bay b).mark, .none, none⟩
  calls : t.rc.calls = [] ∧ t.rc.counter = 0 ∧ t.rc.current = none
  shift : t.sc = s.sc
  tables : t.mu.row = s.mu.row ∧ t.mu.frames = s.mu.frames ∧ t.mu.load = s.mu.load
  stage : t.mu.stage = []
  notices : t.mu.latched = 0 ∧ t.mu.told = 0 ∧ t.mu.moderation = .stopped
  queue : t.pending = s.pending

/-! ### What a save that is cut off leaves (R177) -/

/-- The store after a save that was cut off before record `p` was whole: the new contents before it, a
mixture in its place, the old contents after it. The records in their order are the row table, the
four frame records and the 512 step words; at 517 all are new. -/
structure StoreCutAt (s : State) (p : Nat) (x : SettingsStore) : Prop where
  bound : p ≤ 517
  row : x.row = if p = 0 then .torn else .intact s.mu.row
  frames : ∀ f : FrameNo, x.frames.get f =
    if 1 + f.val < p then .intact (s.mu.frames.get f) else if 1 + f.val = p then .torn
    else s.mu.store.frames.get f
  words : ∀ i : Fin 512, x.words.get i =
    if 5 + i.val < p then .intact (s.se.steps.get i) else if 5 + i.val = p then .torn
    else s.mu.store.words.get i

/-- What a reset does to a save: one in flight is ABANDONED, its store cut off somewhere; any other save
state and store are kept. -/
abbrev SaveCut (s t : State) : Prop :=
  (s.mu.save = .inFlight → t.mu.save = .abandoned ∧ ∃ p, StoreCutAt s p t.mu.store) ∧
    (s.mu.save ≠ .inFlight → t.mu.save = s.mu.save ∧ t.mu.store = s.mu.store)

/-! ### What a step that completes goes on to -/

/-- The residual time of a channel once its step timer is stopped: the time left on a timer that ran,
else what was recorded before (R107, R119). -/
def residualOf (c : Channel) : Option Nat :=
  match c.timer with
  | .running n => some (tenths n)
  | _ => c.residual

/-- The step at `a` has completed with CHAIN, its timer stopped: the step at `next` is begun, and those
that follow it, until one waits or the sequence ends; above 511 the sequence ends SEQUENCE CHECK at `a`
(R116). An ending is handed on (R120). -/
def State.chains (s : State) (ch : ChannelNo) (a next : Nat) : State :=
  let t := if 511 < next then s.endSequence ch a .sequenceCheck else State.walkSteps 17 ch next false s
  if (t.channel ch).state = .running then t else t.handEnding ch

/-! ### What a station's departure leaves (R30, R95, R118) -/

/-- A COMMAND step at `a` waits for a station: it is in WAITING or SENT on the station's channel, and
the station holds its target role (R114, R118). -/
abbrev State.stepOn (s : State) (r : StationRecord) (a : Nat) : Prop :=
  let c := s.channel (stationChannel r)
  c.state = .running ∧ (c.phase = some .waiting ∨ c.phase = some .sent) ∧ c.address = some a ∧
    target? (s.stepAt a).target = some (r.role, r.side)

/-- The order is a PIECE ORDER of the station's frame and side. -/
def pieceFor (r : StationRecord) (o : Order) : Bool :=
  match o.body with
  | .pieceOrder f sd _ _ => r.frame == some f && r.side == some sd
  | _ => false

/-- The PIECE ORDER of an in-hand spindle still waits in the floor order queue (R88, R95). -/
abbrev State.pieceWaits (s : State) (r : StationRecord) (k : InHand) : Prop :=
  k.phase = .waiting ∧
    ∃ o ∈ s.li.floorOrders, o.station = r.address ∧ o.number = k.order ∧ pieceFor r o = true

/-- No AWAIT waits, no COMMAND step waits for the station, and of orders only a RESET, a PARK ORDER or a
carriage's own PIECE ORDER waits for its address: its departure ends no sequence. -/
abbrev State.noStepOn (s : State) (r : StationRecord) : Prop :=
  s.unwatched ∧ (∀ a ∈ (s.channel (stationChannel r)).address, ¬ s.stepOn r a) ∧
    ∀ o ∈ s.li.floorOrders, o.station = r.address →
      o.body = .reset ∨ o.body = .parkOrder ∨ (r.role = .carriage ∧ pieceFor r o = true)

/-- A COMMAND step that waited for the station that left ACTIVE has ended STATION LOST (R118). -/
structure StepLost (s t : State) (r : StationRecord) (a : Nat) : Prop where
  channel : (t.channel (stationChannel r)).state = .ended ∧ (t.channel (stationChannel r)).phase = none ∧
    (t.channel (stationChannel r)).timer = .stopped
  latched : t.mu.latched.getLsbD 2 = true
  ending : ∃ e, (t.channel (stationChannel r)).ending = some e ∧ e.condition = .stationLost ∧
    e.lastStep = a ∧ e.nextStep = a + 1 ∧ e.residual = residualOf (s.channel (stationChannel r)) ∧
    e.lastReport = (s.channel (stationChannel r)).lastReport ∧
    e.cause = (s.channel (stationChannel r)).cause

/-- The drive of a frame has left ACTIVE: the frame is ABSENT unless DOFFING, its flag clear and its
reference unset; a frame that has become ABSENT loses its doff request and its park timers stop (R31,
R32, R40, R93, R128). -/
structure DriveLeft (s t : State) (f : FrameNo) : Prop where
  frame : t.fm.get f = ⟨if s.frameState f = .doffing then .doffing else .absent, false⟩
  delivery : t.di.get f = { s.di.get f with reference := none }
  request : t.ds = { s.ds with
    queue := if s.frameState f = .spinning ∨ s.frameState f = .standing then s.ds.queue.filter (· != f)
      else s.ds.queue }
  carriages : ∀ sd, t.carriage f sd = { s.carriage f sd with
    park := if s.frameState f = .spinning ∨ s.frameState f = .standing then .stopped
      else (s.carriage f sd).park }
  others : ∀ g, g ≠ f → t.fm.get g = s.fm.get g ∧ t.di.get g = s.di.get g ∧
    ∀ sd, t.carriage g sd = s.carriage g sd
  rest : t.spt = s.spt ∧ t.se = s.se ∧ t.rc = s.rc

/-- A carriage has gone to link state `x`: from ACTIVE its flags are cleared and its park timer stopped;
its in-hand spindle is returned at once to RESETTING or DISABLED, or with its removed PIECE ORDER, to the
list or to BROKEN when the list is full, and is kept otherwise (R95). -/
structure CarriageLeft (s t : State) (r : StationRecord) (x : LinkState) (f : FrameNo) (sd : Side) :
    Prop where
  kept : r.link = .active →
    (∀ k, (s.carriage f sd).inHand = some k → x = .silent ∧ ¬ s.pieceWaits r k) →
    t.carriage f sd = { s.carriage f sd with ready := false, parked := false, park := .stopped } ∧
      t.spt = s.spt
  returned : ∀ k, (s.carriage f sd).inHand = some k → k.position < 1536 →
    (x = .resetting ∨ x = .disabled ∨ s.pieceWaits r k) →
    t.carriage f sd = { s.carriage f sd with
        list := if (s.carriage f sd).list.length < 32 then
            insertEntry ⟨k.position, false⟩ (s.carriage f sd).list
          else (s.carriage f sd).list
        inHand := none
        ready := (s.carriage f sd).ready && r.link != .active
        parked := (s.carriage f sd).parked && r.link != .active
        piecing := .stopped
        park := .stopped } ∧
      t.spindle f k.position = { s.spindle f k.position with
        state := if (s.carriage f sd).list.length < 32 then .queued else .broken } ∧
      (∀ q, q ≠ k.position → t.spindle f q = s.spindle f q) ∧ ∀ g, g ≠ f → t.spt.get g = s.spt.get g
  others : ∀ g sd', (g ≠ f ∨ sd' ≠ sd) → t.carriage g sd' = s.carriage g sd'
  rest : t.fm = s.fm ∧ t.di = s.di ∧ t.se = s.se ∧ t.ds = s.ds ∧ t.rc = s.rc

/-- What it leaves that a station goes to link state `x`, not ACTIVE. From ACTIVE the COMMAND step that
waited for it ends STATION LOST. With no step on it, the blocks of its role take the change: a drive's
and a carriage's as said; of a strip's or the train's nothing else changes (R30). -/
structure StationLeft (s t : State) (r : StationRecord) (x : LinkState) : Prop where
  step : ∀ a, r.link = .active → s.stepOn r a → StepLost s t r a
  drive : ∀ f, s.noStepOn r → r.link = .active → r.role = .drive → r.frame = some f → DriveLeft s t f
  carriage : ∀ f sd, s.noStepOn r → r.role = .carriage → r.frame = some f → r.side = some sd →
    s.stationOf .carriage (some f) (some sd) = some r → CarriageLeft s t r x f sd
  others : s.noStepOn r → r.role = .strip ∨ r.role = .train →
    t.fm = s.fm ∧ t.di = s.di ∧ t.spt = s.spt ∧ t.pd = s.pd ∧ t.se = s.se ∧ t.ds = s.ds ∧ t.rc = s.rc

/-! ### What the ending of a doff and of an exchange leave -/

/-- The state that a frame takes at the end of its doff, from its drive (R31, R33). -/
def State.driveGives (s : State) (f : FrameNo) : FrameState :=
  if isActive (s.stationOf .drive (some f) none) = false then .absent
  else if (s.fm.get f).running then .spinning else .standing

/-- The end of a doff of a frame, with no request pending and no call listed: the frame leaves DOFFING and
one permit is free (R135). -/
structure DoffEnded (s x : State) (f : FrameNo) : Prop where
  frame : x.fm.get f = { s.fm.get f with state := s.driveGives f }
  others : ∀ g, g ≠ f → x.fm.get g = s.fm.get g
  permits : x.ds = { s.ds with permits := s.ds.permits - 1 }
  roving : x.rc = s.rc
  carriages : s.driveGives f ≠ .spinning →
    x.spt = s.spt ∧ (∀ sd, x.carriage f sd = { s.carriage f sd with park := .stopped }) ∧
      ∀ g sd, g ≠ f → x.carriage g sd = s.carriage g sd

/-- The end of an exchange with a current bay: a marked bay keeps what its mark gave it; an unmarked one
is called again with the stamp it had, URGENT while a spindle of it is STARVED, else PLANNED (R150). -/
structure ExchangeEnded (s x : State) (c : CurrentBay) : Prop where
  current : x.rc.current = none
  counter : x.rc.counter = s.rc.counter
  marked : c.marked = true → x.rc.bays = s.rc.bays ∧ x.rc.calls = s.rc.calls
  relisted : c.marked = false →
    x.bay c.bay = { s.bay c.bay with
      cls := if ∃ p ∈ s.bayPositions c.bay, (s.spindle c.bay.frame p).state = .starved then .urgent
        else .planned } ∧
      ∃ u v, s.rc.calls = u ++ v ∧ x.rc.calls = u ++ c.bay :: v ∧
        (∀ b ∈ u, s.callAge c.bay ≤ s.callAge b) ∧ ∀ b ∈ v.head?, s.callAge b < s.callAge c.bay
  urgent : c.marked = false →
    (∃ p ∈ s.bayPositions c.bay, (s.spindle c.bay.frame p).state = .starved) → x.mu.latched.getLsbD 4 = true
  otherBays : ∀ b, b ≠ c.bay → x.bay b = s.bay b
  frames : x.fm = s.fm
  doffs : x.ds = s.ds
  spindles : x.spt = s.spt ∧ x.pd = s.pd

end Sys2Proof.Machine
end

