-- ==== Sys2Proof/Certificates/Slice0/Obligations.lean ====
section
/-! DEFINITION. The statements for the provers. -/

open Sys2Proof Sys2Proof.Machine

/-! ### The block and its queue -/

/-- A step takes the command at the front of the queue, with the queue's rest. -/
def Obligations.StepRunsTheFrontCommand : Prop :=
  ∀ (c : Instr) (s : State),
    step { s with pending := c :: s.pending } = exec c s

/-- On an empty queue a step is 10 ms of time: every running timer loses one unit, nothing else
changes (the model's choice, log 2). -/
def Obligations.EmptyQueueIsTime : Prop :=
  ∀ s : State, s.pending = [] → ∃ t, step s = .next t ∧
    t = { s with st := t.st, pd := t.pd, se := { s.se with channels := t.se.channels },
                 sc := { s.sc with second := t.sc.second }, mu := { s.mu with moderation := t.mu.moderation } } ∧
    t.st = s.st.map (fun r => { r with timer := r.timer.pass }) ∧
    (∀ f sd, t.carriage f sd =
      { s.carriage f sd with piecing := (s.carriage f sd).piecing.pass, park := (s.carriage f sd).park.pass }) ∧
    (∀ ch, t.channel ch = { s.channel ch with timer := (s.channel ch).timer.pass }) ∧
    t.sc.second = s.sc.second.pass ∧ t.mu.moderation = s.mu.moderation.pass

/-- Every command is taken in every state: exec answers a next state, and leaves the queue alone. -/
def Obligations.EveryCommandIsTaken : Prop :=
  ∀ (c : Instr) (s : State), ∃ t, exec c s = .next t ∧ t.pending = s.pending

/-- A power-on reset with a store that holds no intact record leaves the state after reset, but for the
model's own counters and queue (log 1); that state is within the capacities, its tables are in range,
its stations are those of its tables, and the laws of the orders, the doff queue, the channels, the
permits, the calls and the spindles hold. -/
def Obligations.ResetState : Prop :=
  (State.reset.withinCapacity = true ∧ State.reset.tablesInRange = true ∧ State.reset.stationsMatch ∧
      State.reset.ordersAllowed ∧ State.reset.ordersNumbered ∧ State.reset.ordersSingle ∧
      State.reset.doffLaw ∧ State.reset.channelLaw ∧ State.reset.permitLaw ∧ State.reset.callLaw ∧
      State.reset.spindleLaw) ∧
  (∀ s : State, s.mu.store = .blank → s.mu.save ≠ .inFlight →
      exec .powerOnReset s =
        .next { State.reset with orders := s.orders, choices := s.choices, pending := s.pending })

/-- Every step keeps the floor order queue, the mill reply queue, the two forward queues, the stage, the
history ring, the work lists and the doff queue within their capacities. The call list is bounded by its
law in StepKeepsDoffLaw. What a 33rd order comes to is the model's choice, log 31. -/
def Obligations.StepKeepsCapacity : Prop :=
  ∀ s t : State, s.withinCapacity = true → step s = .next t → t.withinCapacity = true

/-- Every step keeps the tables in force within their ranges. -/
def Obligations.StepKeepsTablesInRange : Prop :=
  ∀ s t : State, s.tablesInRange = true → step s = .next t → t.tablesInRange = true

/-- Every step keeps the station table in line with the tables in force. -/
def Obligations.StepKeepsStations : Prop :=
  ∀ s t : State, s.stationsMatch → step s = .next t → t.stationsMatch

/-- Every step keeps the laws of the floor order queue. An order waits only for a station whose link state
allows its kind. No two orders have one number (the model's own, log 10); at most one RESET waits for
a station; and a STEP COMMAND waits only for the step in hand of its channel, so at most one for a
channel (R15, R108). -/
def Obligations.StepKeepsOrderLaw : Prop :=
  (∀ s t : State, s.stationsMatch → s.ordersAllowed → step s = .next t → t.ordersAllowed) ∧
    (∀ s t : State, s.ordersNumbered → step s = .next t → t.ordersNumbered) ∧
    (∀ s t : State, s.ordersNumbered → s.channelLaw → s.ordersSingle → step s = .next t → t.ordersSingle)

/-- Every step keeps the law of the doff queue: no frame twice, and no frame that is DOFFING. It keeps the
laws of the channels (R101), of the permits, which are the frames in DOFFING and within the limit
(R125), of the spindles, whose states agree with the running counts, the work lists and the hands
(R64, R82), and of the calls, whose list is the PLANNED and URGENT bays, no frame DOFFING while a bay
of it is current (R144, R147). -/
def Obligations.StepKeepsDoffLaw : Prop :=
  (∀ s t : State, s.doffLaw → step s = .next t → t.doffLaw) ∧
    (∀ s t : State, s.tablesInRange = true → s.channelLaw → step s = .next t →
      t.channelLaw ∧ (s.permitLaw → t.permitLaw)) ∧
    (∀ s t : State, s.tablesInRange = true → s.stationsMatch → s.spindleLaw → step s = .next t →
      t.spindleLaw ∧ (s.channelLaw → s.permitLaw → s.callLaw → t.callLaw))

/-! ### The line -/

/-- Every telegram, sent as the transmitters send it and ended by a fill group or a mark, is received as
itself by a receiver in IDLE, and an order's telegram is one of these; one whose two check bytes are
not the check of its header and body is discarded (R1, R2, R4). -/
def Obligations.SentTelegramIsReceived : Prop :=
  ((∀ (t : Telegram) (m : StartMark), t.body.length ≤ 60 →
      Receiver.idle.takeAll (Telegram.groups t ++ [fillGroup]) = (.idle, [.telegram t]) ∧
      Receiver.idle.takeAll (Telegram.groups t ++ markGroups (.start m)) = (.begun m, [.telegram t]) ∧
      Receiver.idle.takeAll (Telegram.groups t ++ markGroups .lineReset) = (.idle, [.telegram t, .lineReset])) ∧
    (∀ (o : Order) (b : Bool),
      Receiver.idle.takeAll (floorLine (some (.order o b))) = (.idle, [.telegram (orderTelegram o)])) ∧
    (∀ t : Telegram, t.body.length ≤ 60 →
      Receiver.idle.takeAll (millLine (some (.reply t))) = (.idle, [.telegram t]))) ∧
  (∀ (t : Telegram) (c d : Byte), t.body.length ≤ 60 →
      Receiver.idle.takeAll (markGroups (.start t.mark) ++
          (Telegram.checkedBytes t ++ [c, d]).flatMap byteGroups ++ [fillGroup]) =
        (.idle, [if checkOf (Telegram.checkedBytes t) = half c d then .telegram t else .discarded]))

/-- The cases in which a telegram in reception is discarded, with the one check error of each, and where
the receiver goes; `r` is the receiver, with no run of mark groups open. Groups that end in one discard
count one check error at their port and do nothing else (R3). -/
def Obligations.DiscardCases : Prop :=
  (∀ (s : State) (p : Port) (r : Receiver), s.receiver p = r → r.run = [] → r.state ≠ .idle →
      (∀ hi lo : BitVec 4, r.state = .header → r.bytes.length = 3 → r.high = some hi → 60 < (hi ++ lo).toNat →
        s.takeGroup p (dataGroup lo) = (s.setReceiver p .idle).countCheckError p) ∧
      (∀ m : StartMark, r.complete = false →
        s.feed p (markGroups (.start m)) = (s.setReceiver p (.begun m)).countCheckError p) ∧
      (r.complete = false →
        s.feed p (markGroups .lineReset) =
          State.takeEvent p ((s.setReceiver p .idle).countCheckError p) .lineReset) ∧
      (r.complete = false → s.takeGroup p fillGroup = (s.setReceiver p .idle).countCheckError p) ∧
      (∀ n : BitVec 4, r.complete = true →
        s.takeGroup p (dataGroup n) = (s.setReceiver p .idle).countCheckError p) ∧
      (∀ g : Group, classify g = .invalid → s.takeGroup p g = (s.setReceiver p .idle).countCheckError p)) ∧
  (∀ (s : State) (p : Port) (gs : List Group), s.receiver p = .idle → discards gs = true →
      exec (.telegramDiscarded p gs) s =
        .next ((s.setReceiver p (Receiver.idle.takeAll gs).1).countCheckError p))

/-- The bytes of the tables, as staged and read, give the tables back. -/
def Obligations.TableBytesRoundTrip : Prop :=
  (∀ r : RowTable, rowTableOf (rowTableBytes r) = r ∧ (rowTableBytes r).length = 16) ∧
  (∀ r : FrameRecord, frameRecordOf (frameRecordBytes r) = r ∧ (frameRecordBytes r).length = 32) ∧
  (∀ w : StepWord, stepWordOf (stepWordBytes w) = w ∧ (stepWordBytes w).length = 8)

/-! ### Routing -/

/-- Every command that brings a telegram brings one arrival: the receiver goes where the group that
ends the telegram says, the telegram is counted and routed, and a LINE RESET mark that ended it is an
arrival of its own after it (R2, R5). -/
def Obligations.ArrivalIsWhole : Prop :=
  ∀ (c : Instr) (s : State) (t : Telegram) (e : TelegramEnd),
    (arrivalOf c = some (.floor, t, e) → s.ready .floor t →
      exec c s = .next (State.thenEnded .floor ((s.received .floor e).floorArrival t) e)) ∧
    (arrivalOf c = some (.mill, t, e) → s.ready .mill t →
      exec c s = .next (State.thenEnded .mill ((s.received .mill e).millArrival t) e)) ∧
    (s.received .floor e).receiver .floor = endReceiver e ∧
    (s.received .mill e).receiver .mill = endReceiver e ∧
    (s.received .floor e).li.floorRecord =
      { s.li.floorRecord with received := satAdd s.li.floorRecord.received 1 } ∧
    (s.received .mill e).li.millRecord =
      { s.li.millRecord with received := satAdd s.li.millRecord.received 1 }

/-- Floor traffic for the mill, a PASS telegram or one to 255 whose source is not configured or is
DISABLED, enters the mill-bound forward queue as received, or is dropped and counted, which latches
FORWARD LOSS. Floor traffic that the SRC-4 lets lie changes nothing beyond the receiver and the count
(R6, R13). -/
def Obligations.FloorTraffic : Prop :=
  (∀ (s : State) (t : Telegram) (e : TelegramEnd), s.ready .floor t →
      (t.mark = .pass ∨ (t.mark = .station ∧ t.dst = 255 ∧
        ∀ r, s.stationAt t.src = some r → r.link = .disabled)) →
      let x := s.received .floor e
      exec (.floorThroughTraffic t e) s = .next (State.thenEnded .floor
        (if s.li.millForward.length < 8 then
          ((x.setLi { x.li with millForward := s.li.millForward ++ [t] }).millChoice).tellNotices
        else
          ((x.setPortRecord .floor { x.li.floorRecord with
            forwardsDropped := satAdd s.li.floorRecord.forwardsDropped 1 }).setMu
              { s.mu with latched := s.mu.latched ||| 0x80#8 }).tellNotices) e)) ∧
  ((∀ (s : State) (t : Telegram) (e : TelegramEnd), s.ready .floor t →
      (t.mark = .part ∨ (t.mark = .station ∧ t.dst ≠ 255)) →
      exec (.floorLocalTraffic (.telegram t e)) s = .next (State.thenEnded .floor (s.received .floor e) e)) ∧
    (∀ s : State, s.receiver .floor = .idle →
      exec (.floorLocalTraffic .lineReset) s = .next (s.setPortRecord .floor
        { s.li.floorRecord with received := satAdd s.li.floorRecord.received 1 })))

/-- Mill traffic for the floor: a PASS telegram, or a STATION telegram to a station that is not
configured or is DISABLED, enters the floor-bound forward queue as received, or is dropped and
counted (R8, R13). -/
def Obligations.MillThroughTraffic : Prop :=
  ∀ (s : State) (t : Telegram) (e : TelegramEnd), s.ready .mill t →
    (t.mark = .pass ∨ (t.mark = .station ∧ ∀ r, s.stationAt t.dst = some r → r.link = .disabled)) →
    let x := s.received .mill e
    exec (.millThroughTraffic t e) s = .next (State.thenEnded .mill
      (if s.li.floorForward.length < 8 then
        (x.setLi { x.li with floorForward := s.li.floorForward ++ [.telegram t] }).floorChoice
      else
        x.setPortRecord .mill { x.li.millRecord with
          forwardsDropped := satAdd s.li.millRecord.forwardsDropped 1 }) e)

/-- A STATION telegram to a station of the part is answered REFUSED NOT PASSABLE, with tag 0, its kind
and its destination, and not forwarded; with the reply queue full it is dropped (R9). -/
def Obligations.NotPassable : Prop :=
  ∀ (s : State) (t : Telegram) (e : TelegramEnd) (r : StationRecord), s.ready .mill t →
    t.mark = .station → s.stationAt t.dst = some r → r.link ≠ .disabled →
    exec (.notPassable t e) s = .next (State.thenEnded .mill
      (if s.replyRoom then (s.received .mill e).replied ⟨.part, t.src, 255, 0x62, [0, t.kind, 17, t.dst]⟩
      else s.received .mill e) e)

/-- A management telegram that finds the mill reply queue full is discarded: beyond the receiver and
the count nothing changes, whatever its kind (R13). -/
def Obligations.FullReplyQueueDiscards : Prop :=
  ∀ (c : Instr) (s : State) (t : Telegram) (e : TelegramEnd),
    arrivalOf c = some (.mill, t, e) → t.mark = .part → s.ready .mill t → s.replyRoom = false →
    exec c s = .next (State.thenEnded .mill (s.received .mill e) e)

/-- A management telegram of a kind that is none is refused BAD KIND, and one of a wrong length BAD
LENGTH, whichever row brings it; a READ of no item and a COMMIT of no target are refused BAD FIELD;
nothing else changes (R166, R167, R171). -/
def Obligations.WrongTelegramIsRefused : Prop :=
  (∀ (c : Instr) (s : State) (t : Telegram) (e : TelegramEnd),
      arrivalOf c = some (.mill, t, e) → t.mark = .part → s.takes t →
      (mgmtKind? t.kind = none →
        exec c s = .next (State.thenEnded .mill ((s.received .mill e).replied
          ⟨.part, t.src, 255, 0x62, [byteAt t.body 0, t.kind, 1, 0]⟩) e)) ∧
      (∀ k, mgmtKind? t.kind = some k → mgmtLengthOk k t.body.length = false →
        exec c s = .next (State.thenEnded .mill ((s.received .mill e).replied
          ⟨.part, t.src, 255, 0x62, [byteAt t.body 0, t.kind, 2, 0]⟩) e))) ∧
  (∀ (s : State) (t : Telegram) (e : TelegramEnd), s.takes t → t.mark = .part →
      (mgmtKind? t.kind = none →
        exec (.badKind t e) s = .next (State.thenEnded .mill ((s.received .mill e).replied
          ⟨.part, t.src, 255, 0x62, [byteAt t.body 0, t.kind, 1, 0]⟩) e)) ∧
      (t.kind = 0x40 → t.body.length = 7 → readItemHasRow (byteAt t.body 1) = false →
        exec (.badKind t e) s = .next (State.thenEnded .mill ((s.received .mill e).replied
          ⟨.part, t.src, 255, 0x62, [byteAt t.body 0, 0x40, 3, 0]⟩) e)) ∧
      (t.kind = 0x43 → t.body.length = 6 → commitTargetHasRow (byteAt t.body 1) = false →
        exec (.badKind t e) s = .next (State.thenEnded .mill ((s.received .mill e).replied
          ⟨.part, t.src, 255, 0x62, [byteAt t.body 0, 0x43, 3, 0]⟩) e)))

/-! ### Transmitters and notices -/

/-- The mill transmitter finishes a telegram: it begins the oldest reply, else the oldest forward, else
sends fill. The floor transmitter finishes a forward, a PARK ORDER, or an order begun before a line
reset, none of which has a completion to take: the oldest order, else the oldest forward, else fill.
A transmitter that sends fill finishes nothing. The owed notices are told after it (R10, R14, R175). -/
def Obligations.TelegramSent : Prop :=
  (∀ (s : State) (x : MillSending), s.li.millTx = some x →
      (∀ t rest, s.li.millReplies = t :: rest → exec (.telegramSent .mill) s =
        .next (s.setLi { s.li with millTx := some (.reply t), millReplies := rest }).tellNotices) ∧
      (∀ t rest, s.li.millReplies = [] → s.li.millForward = t :: rest → exec (.telegramSent .mill) s =
        .next (s.setLi { s.li with millTx := some (.forward t), millForward := rest }).tellNotices) ∧
      (s.li.millReplies = [] → s.li.millForward = [] → exec (.telegramSent .mill) s =
        .next (s.setLi { s.li with millTx := none }).tellNotices)) ∧
  ((∀ (s : State) (x : FloorSending), s.li.floorTx = some x →
      ((∃ w, x = .forward w) ∨ (∃ o, x = .order o false) ∨ (∃ o, x = .order o true ∧ o.body = .parkOrder)) →
      (∀ o rest, s.li.floorOrders = o :: rest → exec (.telegramSent .floor) s =
        .next (s.setLi { s.li with floorTx := some (.order o true), floorOrders := rest }).tellNotices) ∧
      (∀ w rest, s.li.floorOrders = [] → s.li.floorForward = w :: rest → exec (.telegramSent .floor) s =
        .next (s.setLi { s.li with floorTx := some (.forward w), floorForward := rest }).tellNotices) ∧
      (s.li.floorOrders = [] → s.li.floorForward = [] → exec (.telegramSent .floor) s =
        .next (s.setLi { s.li with floorTx := none }).tellNotices)) ∧
    (∀ s : State, s.li.floorTx = none → exec (.telegramSent .floor) s = .next s) ∧
    (∀ s : State, s.li.millTx = none → exec (.telegramSent .mill) s = .next s))

/-- A PIECE ORDER has been sent: the slot that waits for it becomes SENT and the piecing timer starts
from the piecing time in force; a completion that is not the slot's is disregarded (R88). That the
row finishes the telegram whole, with the transmitter's next choice (R14) and the telling of notices
(R175) after the report, is the model's choice, log 12. -/
def Obligations.PieceOrderSent : Prop :=
  ∀ (s : State) (n : Nat) (a : Byte) (f : FrameNo) (sd : Side) (p k : Nat),
    s.li.floorTx = some (.order ⟨n, a, .pieceOrder f sd p k⟩ true) →
    let x := s.setLi { s.li with floorTx := none }
    (∀ h, (s.carriage f sd).inHand = some h → h.phase = .waiting → h.order = n →
      exec .pieceOrderCompletion s = .next ((x.setCarriage f sd
        { s.carriage f sd with
          inHand := some { h with phase := .sent }
          piecing := .running (100 * (s.record f).piecingTime.toNat) }).floorChoice).tellNotices) ∧
    ((∀ h, (s.carriage f sd).inHand = some h → ¬ (h.phase = .waiting ∧ h.order = n)) →
      exec .pieceOrderCompletion s = .next x.floorChoice.tellNotices)

/-- A STEP COMMAND has been sent: the step that waits for it becomes SENT and the step timer starts from
its time limit; a completion that is not the step's is disregarded (R108). A RESET has been sent: the
reset wait of its station starts if the station is still RESETTING and this RESET was the last queued
for it, else the completion is disregarded (R27). That each row finishes its telegram whole, with the
transmitter's next choice (R14) and the telling of notices (R175), is the model's choice, log 12. -/
def Obligations.StepAndResetCompletions : Prop :=
  (∀ (s : State) (n : Nat) (a : Byte) (ch : ChannelNo) (u v : Byte) (b : Option BayId),
      s.li.floorTx = some (.order ⟨n, a, .stepCommand ch u v b⟩ true) →
      let x := s.setLi { s.li with floorTx := none }
      (∀ i, (s.channel ch).address = some i → (s.channel ch).phase = some .waiting →
        (s.channel ch).order = some n →
        exec .stepCommandCompletion s = .next ((x.setChannel ch
          { s.channel ch with
            phase := some .sent
            timer := .running (10 * (s.stepAt i).limit.toNat) }).floorChoice).tellNotices) ∧
      (¬ ((s.channel ch).phase = some .waiting ∧ (s.channel ch).order = some n) →
        exec .stepCommandCompletion s = .next x.floorChoice.tellNotices)) ∧
  (∀ (s : State) (n : Nat) (a : Byte), s.li.floorTx = some (.order ⟨n, a, .reset⟩ true) →
      exec .resetCompletion s = .next (((s.setLi { s.li with floorTx := none }).setSt
        (s.st.map fun r =>
          if r.address = a ∧ r.link = .resetting ∧ r.resetOrder = some n then
            { r with timer := .running (10 * s.mu.row.resetWait.toNat) }
          else r)).floorChoice).tellNotices)

/-- The transmitters' choice when they are not sending: own queue first, then the forward queue, else
fill (R14). An order offered to the floor order queue enters it at the back when the link state of its
station allows its kind, a waiting RESET or PARK ORDER giving way, and one of the 32 places is then free,
and is removed otherwise (R12, R13, R15; that one without a place is removed in the same way is the
model's choice, log 31). A reply enters the mill reply queue at the back, and an idle transmitter takes
the oldest. -/
def Obligations.QueuesAndChoice : Prop :=
  (∀ s : State,
      ((s.li.floorTx ≠ none ∨ (s.li.floorOrders = [] ∧ s.li.floorForward = [])) → s.floorChoice = s) ∧
      (∀ o rest, s.li.floorTx = none → s.li.floorOrders = o :: rest →
        s.floorChoice = s.setLi { s.li with floorTx := some (.order o true), floorOrders := rest }) ∧
      (∀ w rest, s.li.floorTx = none → s.li.floorOrders = [] → s.li.floorForward = w :: rest →
        s.floorChoice = s.setLi { s.li with floorTx := some (.forward w), floorForward := rest }) ∧
      ((s.li.millTx ≠ none ∨ (s.li.millReplies = [] ∧ s.li.millForward = [])) → s.millChoice = s) ∧
      (∀ t rest, s.li.millTx = none → s.li.millReplies = t :: rest →
        s.millChoice = s.setLi { s.li with millTx := some (.reply t), millReplies := rest }) ∧
      (∀ t rest, s.li.millTx = none → s.li.millReplies = [] → s.li.millForward = t :: rest →
        s.millChoice = s.setLi { s.li with millTx := some (.forward t), millForward := rest })) ∧
  (∀ (s : State) (a : Byte) (b : OrderBody),
      let kept := s.li.floorOrders.filter fun o : Order => !givesWay b a o
      (s.orderEnters a b = true ↔
        ∃ r, s.stationAt a = some r ∧ orderAllowed b r.link = true ∧ kept.length < 32) ∧
      (s.orderEnters a b = true →
        s.offerOrder a b = ({ s with
          li := { s.li with floorOrders := kept ++ ([⟨s.orders, a, b⟩] : List Order) }
          orders := s.orders + 1 }).floorChoice) ∧
      (s.orderEnters a b = false → s.offerOrder a b = s)) ∧
  (∀ (s : State) (t : Telegram),
      (s.li.millTx ≠ none → s.queueReply t = s.setLi { s.li with millReplies := s.li.millReplies ++ [t] }) ∧
      (s.li.millTx = none → s.li.millReplies = [] →
        s.queueReply t = s.setLi { s.li with millTx := some (.reply t) }) ∧
      (∀ u rest, s.li.millTx = none → s.li.millReplies = u :: rest →
        s.queueReply t = s.setLi { s.li with millTx := some (.reply u), millReplies := rest ++ [t] }))

/-- What is told at the end of an event: a class owed, the timer expired and room in the queue make one
NOTICE of every owed class with the set of all latched ones, which tells its classes and starts the
timer from the interval in force, 0 leaving it expired; otherwise nothing changes. The expiry of the
moderation timer is such an event (R174, R175). -/
def Obligations.NoticeRule : Prop :=
  (∀ s : State,
      let owed := s.mu.latched &&& s.mu.row.enables &&& ~~~s.mu.told
      (owed ≠ 0 → s.mu.moderation = .stopped → s.replyRoom = true →
        s.tellNotices = (s.setMu { s.mu with
          told := s.mu.told ||| owed
          moderation := if s.mu.row.moderation = 0 then .stopped else .running s.mu.row.moderation.toNat }).queueReply
            ⟨.part, 0, 255, 0x63, [0, owed, s.mu.latched]⟩) ∧
      ((owed = 0 ∨ s.mu.moderation ≠ .stopped ∨ s.replyRoom = false) → s.tellNotices = s)) ∧
  (∀ (s : State) (n : Nat), s.mu.moderation = .running n →
      let owed := s.mu.latched &&& s.mu.row.enables &&& ~~~s.mu.told
      (owed ≠ 0 → s.replyRoom = true → exec .moderationTimerExpiry s = .next
        ((s.setMu { s.mu with
          told := s.mu.told ||| owed
          moderation := if s.mu.row.moderation = 0 then .stopped else .running s.mu.row.moderation.toNat }).queueReply
            ⟨.part, 0, 255, 0x63, [0, owed, s.mu.latched]⟩)) ∧
      ((owed = 0 ∨ s.replyRoom = false) →
        exec .moderationTimerExpiry s = .next (s.setMu { s.mu with moderation := .stopped })))

/-! ### Resets and the settings store -/

/-- A power-on reset loads the store: a record that is torn or out of range takes its default and is
named in the load result; nothing is staged, saved or told before (R178, R179). -/
def Obligations.PowerOnLoad : Prop :=
  ∀ s : State, s.mu.save ≠ .inFlight → ∃ t, exec .powerOnReset s = .next t ∧
    (∀ r, s.mu.store.row = .intact r → rowInRange r = true → t.mu.row = r ∧ t.mu.load.rowFailed = false) ∧
    ((s.mu.store.row = .torn ∨ ∃ r, s.mu.store.row = .intact r ∧ rowInRange r = false) →
      t.mu.row = .default ∧ t.mu.load.rowFailed = true) ∧
    (∀ f r, s.mu.store.frames.get f = .intact r → frameInRange r = true →
      t.mu.frames.get f = r ∧ t.mu.load.framesFailed.get f = false) ∧
    (∀ f, (s.mu.store.frames.get f = .torn ∨
        ∃ r, s.mu.store.frames.get f = .intact r ∧ frameInRange r = false) →
      t.mu.frames.get f = .default ∧ t.mu.load.framesFailed.get f = true) ∧
    (∀ i w, s.mu.store.words.get i = .intact w → t.se.steps.get i = w) ∧
    (∀ i, s.mu.store.words.get i = .torn → t.se.steps.get i = .endWord) ∧
    t.mu.load.wordsFailed = (s.mu.store.words.toList.filter fun w => w == .torn).length ∧
    t.mu.store = s.mu.store ∧ t.mu.stage = [] ∧ t.mu.save = .none ∧
    (t.mu.latched = 0 ∨ t.mu.latched = 0x40) ∧
    (t.mu.latched = 0x40 ↔
      (t.mu.load.rowFailed = true ∨ (∃ f, t.mu.load.framesFailed.get f = true) ∨ t.mu.load.wordsFailed ≠ 0)) ∧
    t.stationsMatch ∧ ∀ r ∈ t.st, r.link = .absent ∧ r.flags = .clear ∧ r.errorCount = 0 ∧ r.timer = .stopped

/-- What a power-on reset gives the delivery items, the marks, the spindles and the Shift Counters, in
every state: all zero, unset or absent, record 1 open with fresh entries, the ring empty and the second
timer started. -/
def Obligations.PowerOnClearsAccounts : Prop :=
  ∀ s : State, ∃ t, exec .powerOnReset s = .next t ∧
    (∀ f, t.di.get f = ⟨0, 0, none, none⟩ ∧ t.ds.marks.get f = 0) ∧
    (∀ b, (t.bay b).mark = 0) ∧
    (∀ f p, t.spindle f p = ⟨.unseen, none, 0, 0, 0, 0, 0⟩) ∧ (∀ f, t.runningCount f = 0) ∧
    t.sc.current.number = 1 ∧ t.sc.current.openSeconds = 0 ∧ t.sc.current.state = .opened ∧
    (∀ f, t.sc.current.entries.get f = ⟨0, 0, 0, 0, 0, 0, 0, 0, 0, 0, none⟩) ∧
    t.sc.history = [] ∧ t.sc.second = .running 100

/-- At either reset every channel takes the values of R101. At power-on the step store is loaded: intact
words as stored, torn ones as END words (said with no save in flight). A line reset latches nothing,
hands no ending on and keeps the step store; a STEP COMMAND that waits is emptied with its queue, and
one that the transmitter has begun is sent on without a completion report. -/
def Obligations.ResetsEndEverySequence : Prop :=
  (∀ s : State, ∃ t, exec .powerOnReset s = .next t ∧ (∀ ch, t.channel ch = .fresh) ∧
    (s.mu.save ≠ .inFlight → ∀ i, (∀ w, s.mu.store.words.get i = .intact w → t.se.steps.get i = w) ∧
      (s.mu.store.words.get i = .torn → t.se.steps.get i = .endWord))) ∧
  (∀ s : State, s.li.millRx.complete = false → ∃ t, exec .lineReset s = .next t ∧
    (∀ ch, t.channel ch = .fresh) ∧ t.mu.latched = 0 ∧ (∀ f, t.frameState f = .absent) ∧
    t.ds.permits = 0 ∧ t.ds.queue = [] ∧ t.rc.current = none ∧ t.rc.calls = [] ∧
    t.li.floorOrders = [] ∧ (∀ o b, s.li.floorTx = some (.order o b) → t.li.floorTx = some (.order o false)) ∧
    t.se.steps = s.se.steps)

/-- A LINE RESET mark at the mill port, from every receive state but a complete telegram: every block
is reset in its own way, the Line Interface is emptied, and the mark is forwarded (R10, R179). That an
open run of mark groups at the floor receiver is dropped too is the model's choice, log 32. -/
def Obligations.LineResetAtMill : Prop :=
  ∀ s : State, s.li.millRx.complete = false → ∃ t, exec .lineReset s = .next t ∧ LineResetOf s t ∧
    t.li.floorRx = .idle ∧ t.li.millRx = .idle ∧ t.li.floorOrders = [] ∧ t.li.millReplies = [] ∧
    t.li.millForward = [] ∧ t.li.floorRecord = .zero ∧ t.li.millRecord = .zero ∧ t.li.millTx = s.li.millTx ∧
    (s.li.floorTx = none → t.li.floorTx = some (.forward .lineReset) ∧ t.li.floorForward = []) ∧
    (∀ o b, s.li.floorTx = some (.order o b) →
      t.li.floorTx = some (.order o false) ∧ t.li.floorForward = [.lineReset]) ∧
    (∀ w, s.li.floorTx = some (.forward w) →
      t.li.floorTx = s.li.floorTx ∧ t.li.floorForward = [.lineReset])

/-- PART RESET: a line reset of the part with no reply and nothing forwarded; the mill receiver is
left where the end of the telegram left it (R10, R179). That an open run of mark groups at the floor
receiver is dropped is the model's choice, log 32. -/
def Obligations.PartReset : Prop :=
  ∀ (s : State) (h : MillHead), s.takes (millTelegram h kindPartReset []) → h.ends ≠ .mark .lineReset →
    ∃ t, exec (.partReset h []) s = .next t ∧ LineResetOf s t ∧
      t.li.floorRx = .idle ∧ t.li.millRx = endReceiver h.ends ∧ t.li.floorOrders = [] ∧
      t.li.millReplies = [] ∧ t.li.floorForward = [] ∧ t.li.millForward = [] ∧
      t.li.floorRecord = .zero ∧ t.li.millRecord = .zero ∧ t.li.millTx = s.li.millTx ∧
      (s.li.floorTx = none → t.li.floorTx = none) ∧
      (∀ o b, s.li.floorTx = some (.order o b) → t.li.floorTx = some (.order o false)) ∧
      (∀ w, s.li.floorTx = some (.forward w) → t.li.floorTx = s.li.floorTx)

/-! ### READ -/

/-- READ of the row table, of a frame, and of step words: the bytes in force, or the refusal; nothing
else changes (R60, R99, R167, R169, R170). `r` is the body after the item code. -/
def Obligations.ReadTables : Prop :=
  ∀ (s : State) (h : MillHead) (r : List Byte), r.length = 5 →
    (s.takes (readTelegram h 1 r) → exec (.readRowTable h r) s =
      .next ((s.received .mill h.ends).answers h (answerTo h (rowTableBytes s.mu.row)))) ∧
    (s.takes (readTelegram h 2 r) →
      (∀ f : FrameNo, (byteAt r 0).toNat = f.val → byteAt r 1 = 0 → exec (.readFrame h r) s =
        .next ((s.received .mill h.ends).answers h (answerTo h (frameRecordBytes (s.mu.frames.get f))))) ∧
      (∀ f : FrameNo, (byteAt r 0).toNat = f.val → byteAt r 1 = 1 → exec (.readFrame h r) s =
        .next ((s.received .mill h.ends).answers h (answerTo h
          ([frameStateCode (s.frameState f), flagByte (s.fm.get f).running] ++
            bytesOf 5 (s.di.get f).odometer.toNat ++ bytesOf 2 (s.di.get f).remainder.val ++
            presentHalf (s.di.get f).reference ++ presentHalf (s.di.get f).lastSpeed ++
            bytesOf 2 (s.runningCount f))))) ∧
      ((4 ≤ (byteAt r 0).toNat ∨ 2 ≤ (byteAt r 1).toNat) → exec (.readFrame h r) s =
        .next ((s.received .mill h.ends).answers h (refusedTo h kindRead .badField)))) ∧
    (s.takes (readTelegram h 3 r) →
      let a := (halfAt r 2).toNat
      let n := (byteAt r 4).toNat
      exec (.readStepWords h r) s = .next ((s.received .mill h.ends).answers h
        (if n = 0 ∨ 7 < n ∨ 512 < a + n then refusedTo h kindRead .badField
        else answerTo h ((numbersFrom a n).flatMap fun i => stepWordBytes (s.stepAt i)))))

/-- SAVE SETTINGS is answered DONE and starts a save, or is refused STORE BUSY while one is in flight; its
completion stores every record in force and leaves the rest alone; with no save in flight it changes
nothing (the model's choice, log 35). A line reset, by the mark or by PART RESET, cuts a save off: the
state becomes ABANDONED, and the store holds the new contents of the records before one of them, a
mixture there, and the old ones after it, how far being a free value (R177; log 6). A power-on reset
with a save in flight loads a store that was cut off in the same way. -/
def Obligations.SaveSettings : Prop :=
  ((∀ (s : State) (h : MillHead), s.takes (millTelegram h kindSaveSettings []) →
      exec (.saveSettings h []) s = .next
        (if s.mu.save = .inFlight then
          (s.received .mill h.ends).answers h (refusedTo h kindSaveSettings .storeBusy)
        else ((s.received .mill h.ends).setMu { s.mu with save := .inFlight }).answers h
          (doneTo h kindSaveSettings))) ∧
    (∀ s : State, s.mu.save = .inFlight → ∃ x : SettingsStore,
      exec .saveCompletion s = .next (s.setMu { s.mu with save := .complete, store := x }) ∧
      x.row = .intact s.mu.row ∧ (∀ f, x.frames.get f = .intact (s.mu.frames.get f)) ∧
      ∀ i, x.words.get i = .intact (s.se.steps.get i)) ∧
    (∀ s : State, s.mu.save ≠ .inFlight → exec .saveCompletion s = .next s)) ∧
  (∀ s : State, s.li.millRx.complete = false → ∃ t, exec .lineReset s = .next t ∧ SaveCut s t) ∧
  (∀ (s : State) (h : MillHead), s.takes (millTelegram h kindPartReset []) →
    ∃ t, exec (.partReset h []) s = .next t ∧ SaveCut s t) ∧
  (∀ s : State, ∃ t, exec .powerOnReset s = .next t ∧ t.mu.save = .none ∧
    (s.mu.save = .inFlight → ∃ (p : Nat) (x : SettingsStore), StoreCutAt s p x ∧
      exec .powerOnReset s = exec .powerOnReset
        ((s.setMu { s.mu with save := .abandoned, store := x }).setChoices (s.choices + 1))))

/-- READ of a station record, of spindle records and of bay records: the bytes of 11.4, or the refusal in
the order of the tests; nothing else changes. The codes are those of 11.4 (R19, R77, R153, R181). -/
def Obligations.ReadRecords : Prop :=
  let bit := fun b : Bool => if b then 1 else 0
  let station := fun x : StationRecord =>
    [x.address, roleCode x.role, frameByte x.frame, sideByte x.side, linkCode x.link] ++
      bytesOf 1 (bit x.flags.presence + 2 * bit x.flags.link + 4 * bit x.flags.resetDone +
        8 * bit x.flags.errors) ++ bytesOf 2 x.errorCount.toNat
  let since := fun odo m : Mm => (odo.toNat + 1099511627776 - m.toNat) % 1099511627776
  let spindle := fun (odo : Mm) (x : SpindleRecord) =>
    bytesOf 1 (16 * (spindleStateCode x.state).toNat + x.attempts.toNat) ++
      bytesOf 1 (16 * x.rebreaks.toNat +
        (if x.runMark = none then 0 else if x.runMark = some x.pieceMark then 1 else 2)) ++
      bytesOf 1 x.shiftBreaks.toNat ++
      bytesOf 4 (match x.state, x.runMark with
        | .running, some m => min (x.cop.toNat + since odo m) 4294967295
        | _, _ => x.cop.toNat) ++
      bytesOf 3 (min (since odo x.pieceMark) 16777215)
  let bay := fun (s : State) (c : BayId) =>
    bytesOf 2 (16384 * (callCode (s.bay c).cls).toNat + 8192 * bit (s.bayDue c) +
        (match (s.bay c).stamp with
          | some t => min ((s.rc.counter.toNat + 4294967296 - t.toNat) % 4294967296) 8190
          | none => 8191)) ++
      bytesOf 3 (min (since (s.odometer c.frame) (s.bay c).mark / 1000) 16777215) ++
      bytesOf 2 (min (s.bayRemaining c / 1000) 65535)
  ([Role.drive, .strip, .carriage, .train].map roleCode = [1, 2, 3, 4] ∧
    [LinkState.absent, .active, .silent, .resetting, .disabled].map linkCode = [0, 1, 2, 3, 4] ∧
    [SpindleState.unseen, .running, .broken, .queued, .piecing, .starved, .locked].map spindleStateCode =
      [0, 1, 2, 3, 4, 5, 6] ∧
    [CallClass.none, .planned, .urgent, .serving].map callCode = [0, 1, 2, 3] ∧
    frameByte none = 255 ∧ (∀ f : FrameNo, frameByte (some f) = BitVec.ofNat 8 f.val) ∧
    [none, some Side.a, some .b].map sideByte = [255, 0, 1]) ∧
  ∀ (s : State) (h : MillHead) (r : List Byte), r.length = 5 →
    let first := (halfAt r 2).toNat
    let n := (byteAt r 4).toNat
    (s.takes (readTelegram h 4 r) →
      (∀ x, s.stationAt (byteAt r 0) = some x → exec (.readStationRecord h r) s =
        .next ((s.received .mill h.ends).answers h (answerTo h (station x)))) ∧
      (s.stationAt (byteAt r 0) = none → exec (.readStationRecord h r) s =
        .next ((s.received .mill h.ends).answers h (refusedTo h kindRead .notInUse)))) ∧
    (s.takes (readTelegram h 5 r) →
      (∀ f : FrameNo, (byteAt r 0).toNat = f.val → exec (.readSpindleRecords h r) s =
        .next ((s.received .mill h.ends).answers h
          (if s.mu.row.framesInUse.toNat ≤ f.val then refusedTo h kindRead .notInUse
          else if n = 0 ∨ 5 < n ∨ 2 * s.perSide f < first + n then refusedTo h kindRead .badField
          else answerTo h (bytesOf 5 (s.odometer f).toNat ++ bytesOf 4 (min (s.gauge f) 4294967295) ++
            (numbersFrom first n).flatMap fun p => spindle (s.odometer f) (s.spindle f p))))) ∧
      (4 ≤ (byteAt r 0).toNat → exec (.readSpindleRecords h r) s =
        .next ((s.received .mill h.ends).answers h (refusedTo h kindRead .badField)))) ∧
    (s.takes (readTelegram h 6 r) →
      (∀ (f : FrameNo) (sd : Side), (byteAt r 0).toNat = f.val → (byteAt r 1).toNat = sideNo sd →
        exec (.readBayRecords h r) s = .next ((s.received .mill h.ends).answers h
          (if s.mu.row.framesInUse.toNat ≤ f.val then refusedTo h kindRead .notInUse
          else if n = 0 ∨ 8 < n ∨ s.perSide f / 48 < first + n then refusedTo h kindRead .badField
          else answerTo h ((numbersFrom first n).flatMap fun i => bay s ⟨f, sd, Fin.ofNat 16 i⟩)))) ∧
      ((4 ≤ (byteAt r 0).toNat ∨ 2 ≤ (byteAt r 1).toNat) → exec (.readBayRecords h r) s =
        .next ((s.received .mill h.ends).answers h (refusedTo h kindRead .badField))))

/-- READ of a carriage record, of a channel, of the doff queue and of the call list: the bytes of 11.4, or
the refusals (R96, R123, R138, R153, R181, R182). The attempt number and phase of an absent hand are
sent as 0 (the model's choice, log 33); a time left that is not a whole number of tenths is given as
log 4 says, one that never expires as log 5, and the due flag of a default record in use as log 7. -/
def Obligations.ReadWork : Prop :=
  let bit := fun b : Bool => if b then 1 else 0
  let left := fun t : Timer => match t with
    | .stopped => ([0, 0, 0] : List Byte)
    | .running n => 1 :: bytesOf 2 (min (tenths n) 65535)
    | .endless => 1 :: bytesOf 2 (min Config.endlessParkLeft.toNat 65535)
  let hand := fun x : Option InHand => match x with
    | none => ([0xFF, 0xFF, 0, 0] : List Byte)
    | some k => bytesOf 2 k.position ++ bytesOf 1 k.attempt ++ bytesOf 1 (if k.phase = .waiting then 1 else 2)
  let carriage := fun (c : CarriageRecord) (part : Nat) =>
    let listed := ((c.list.drop (16 * part)).take 16).flatMap fun e =>
      bytesOf 2 (32768 * bit e.deferred + e.position % 2048)
    addressBytes c.position ++ [directionCode c.direction, carriageStateCode c.lastState] ++
      bytesOf 1 (bit c.ready + 2 * bit c.parked) ++ hand c.inHand ++ left c.piecing ++ left c.park ++
      bytesOf 1 c.list.length ++ listed ++ List.replicate (32 - listed.length) 0
  let report := fun x : Option LastReport => match x with
    | none => ([0, 0, 0, 0] : List Byte)
    | some y => [1, resultCode y.result] ++ bytesOf 2 y.quantity.toNat
  let ending := fun x : Option EndingRecord => match x with
    | none => List.replicate 17 0
    | some e => [1, endCode e.condition] ++ bytesOf 2 e.lastStep ++ bytesOf 2 e.nextStep ++
      report e.lastReport ++ presentNat e.residual ++ bytesOf 1 (bit e.noteSeen) ++
      addressBytes e.noteAddress ++ [causeCode e.cause]
  let channel := fun c : Channel =>
    [channelStateCode c.state, causeCode c.cause] ++ addressBytes c.address ++ [phaseCode c.phase] ++
      left c.timer ++ bytesOf 2 (c.stack.get 0) ++ bytesOf 2 (c.stack.get 1) ++ bytesOf 2 (c.stack.get 2) ++
      bytesOf 2 (c.stack.get 3) ++ bytesOf 1 c.pointer.val ++ bytesOf 1 c.runCount ++
      bytesOf 1 (bit c.noteSeen) ++ addressBytes c.noteAddress ++ ending c.ending
  let doff := fun (s : State) (f : FrameNo) =>
    bytesOf 5 (s.ds.marks.get f).toNat ++ bytesOf 5 (s.gauge f) ++
      bytesOf 1 (bit (if s.inUse f = true ∧ s.record f = .default then Config.defaultDue f else s.doffDue f))
  let queue := fun s : State => s.ds.queue.flatMap fun f => bytesOf 1 f.val
  let current := fun x : Option CurrentBay => match x with
    | none => ([0, 0] : List Byte)
    | some c => bytesOf 1 (128 + 64 * bit c.marked + 16 * c.bay.frame.val + 8 * sideNo c.bay.side) ++
      bytesOf 1 c.bay.index.val
  let call := fun (s : State) (b : BayId) =>
    bytesOf 1 (64 * b.frame.val + 32 * sideNo b.side + 2 * b.index.val +
        bit (decide ((s.bay b).cls = .urgent))) ++ bytesOf 2 (min (s.callAge b) 65535)
  ([Direction.up, .down].map directionCode = [0, 1] ∧
    [none, some CarriageState.ready, some .travelling, some .working, some .parked, some .fault].map
      carriageStateCode = [255, 0, 1, 2, 3, 4] ∧
    [ChannelState.idle, .running, .ended].map channelStateCode = [0, 1, 2] ∧
    [none, some StartCause.doff, some .exchange, some .management].map causeCode = [0, 1, 2, 3] ∧
    [none, some StepPhase.waiting, some .sent, some .timing, some .watching].map phaseCode = [0, 1, 2, 3, 4] ∧
    [EndCondition.normal, .short, .refused, .timeout, .sequenceCheck, .stationLost, .halted].map endCode =
      [1, 2, 3, 4, 5, 6, 7] ∧ [StepResult.done, .doneAdvance, .refused].map resultCode = [0, 1, 2]) ∧
  ∀ (s : State) (h : MillHead) (r : List Byte), r.length = 5 →
    (s.takes (readTelegram h 7 r) →
      (∀ (f : FrameNo) (sd : Side), (byteAt r 0).toNat = f.val → (byteAt r 1).toNat = sideNo sd →
        exec (.readCarriageRecord h r) s = .next ((s.received .mill h.ends).answers h
          (if s.inService f sd = false then refusedTo h kindRead .notInUse
          else if 2 ≤ (byteAt r 4).toNat then refusedTo h kindRead .badField
          else answerTo h (carriage (s.carriage f sd) (byteAt r 4).toNat)))) ∧
      ((4 ≤ (byteAt r 0).toNat ∨ 2 ≤ (byteAt r 1).toNat) → exec (.readCarriageRecord h r) s =
        .next ((s.received .mill h.ends).answers h (refusedTo h kindRead .badField)))) ∧
    (s.takes (readTelegram h 8 r) →
      (∀ ch : ChannelNo, (byteAt r 0).toNat = ch.val → exec (.readChannel h r) s =
        .next ((s.received .mill h.ends).answers h (answerTo h (channel (s.channel ch))))) ∧
      (5 ≤ (byteAt r 0).toNat → exec (.readChannel h r) s =
        .next ((s.received .mill h.ends).answers h (refusedTo h kindRead .badField)))) ∧
    (s.takes (readTelegram h 9 r) → exec (.readDoffQueue h r) s =
      .next ((s.received .mill h.ends).answers h (answerTo h
        ([s.mu.row.permitLimit] ++ bytesOf 1 s.ds.permits ++ bytesOf 1 s.ds.queue.length ++ queue s ++
          List.replicate (4 - s.ds.queue.length) 0xFF ++ doff s 0 ++ doff s 1 ++ doff s 2 ++ doff s 3)))) ∧
    (s.takes (readTelegram h 10 r) → exec (.readCallList h r) s =
      .next ((s.received .mill h.ends).answers h
        (if 8 ≤ (byteAt r 0).toNat then refusedTo h kindRead .badField
        else
          let listed := ((s.rc.calls.drop (16 * (byteAt r 0).toNat)).take 16).flatMap (call s)
          answerTo h (bytesOf 1 s.rc.calls.length ++ bytesOf 4 s.rc.counter.toNat ++ current s.rc.current ++
            listed ++ List.replicate (48 - listed.length) 0))))

/-- READ of a shift record, of the notice state, of the port records and of the settings: the bytes of
11.4, or the refusals (R5, R164, R174, R177, R178, R181, R182). The port records are read with the READ
itself counted (log 22). -/
def Obligations.ReadOffice : Prop :=
  let figures := fun x : Option Figures => match x with
    | none => List.replicate 9 0
    | some y => [1] ++ bytesOf 4 y.mass.toNat ++ bytesOf 2 y.efficiency.toNat ++ bytesOf 2 y.breakRate.toNat
  let entry := fun e : ShiftEntry =>
    bytesOf 6 e.spindleLength.toNat ++ bytesOf 5 e.advance.toNat ++ bytesOf 8 e.massUnits.toNat ++
      bytesOf 4 e.spinSeconds.toNat ++ bytesOf 4 e.breaks.toNat ++ bytesOf 4 e.pieced.toNat ++
      bytesOf 4 e.failed.toNat ++ bytesOf 4 e.lockouts.toNat ++ bytesOf 2 e.doffs.toNat ++
      bytesOf 2 e.exchanges.toNat ++ figures e.figures
  let shift := fun (x : Option ShiftRecord) (f : FrameNo) => match x with
    | none => List.replicate 59 0
    | some y => bytesOf 2 y.number.toNat ++ bytesOf 4 y.openSeconds.toNat ++ [recordCode y.state] ++
      entry (y.entries.get f)
  let port := fun x : PortRecord =>
    bytesOf 4 x.received.toNat ++ bytesOf 4 x.checkErrors.toNat ++ bytesOf 4 x.forwardsDropped.toNat
  let bit := fun b : Bool => if b then 1 else 0
  let settings := fun m : ManagementUnit =>
    bytesOf 1 (bit m.load.rowFailed) ++
      bytesOf 1 (bit (m.load.framesFailed.get 0) + 2 * bit (m.load.framesFailed.get 1) +
        4 * bit (m.load.framesFailed.get 2) + 8 * bit (m.load.framesFailed.get 3)) ++
      bytesOf 2 m.load.wordsFailed ++ addressBytes m.load.firstWord ++ [saveCode m.save] ++
      bytesOf 1 (bit (decide (m.save = .inFlight)))
  ([RecordState.opened, .closed].map recordCode = [1, 2] ∧
    [SaveState.none, .inFlight, .complete, .abandoned].map saveCode = [0, 1, 2, 3]) ∧
  ∀ (s : State) (h : MillHead) (r : List Byte), r.length = 5 →
    (s.takes (readTelegram h 11 r) →
      (∀ f : FrameNo, (byteAt r 1).toNat = f.val → exec (.readShiftRecord h r) s =
        .next ((s.received .mill h.ends).answers h
          (if (byteAt r 0).toNat = 0 then answerTo h (shift (some s.sc.current) f)
          else if 5 ≤ (byteAt r 0).toNat then refusedTo h kindRead .badField
          else answerTo h (shift s.sc.history[(byteAt r 0).toNat - 1]? f)))) ∧
      (4 ≤ (byteAt r 1).toNat → exec (.readShiftRecord h r) s =
        .next ((s.received .mill h.ends).answers h (refusedTo h kindRead .badField)))) ∧
    (s.takes (readTelegram h 12 r) → exec (.readNoticeState h r) s =
      .next ((s.received .mill h.ends).answers h (answerTo h
        ([s.mu.latched, s.mu.row.enables, s.mu.told] ++ (match s.mu.moderation with
          | .running n => 1 :: bytesOf 2 (min n 65535)
          | _ => [0, 0, 0]))))) ∧
    (s.takes (readTelegram h 13 r) → exec (.readPortRecords h r) s =
      .next ((s.received .mill h.ends).answers h (answerTo h (port s.li.floorRecord ++ port
        { s.li.millRecord with received := satAdd s.li.millRecord.received 1 })))) ∧
    (s.takes (readTelegram h 14 r) → exec (.readSettings h r) s =
      .next ((s.received .mill h.ends).answers h (answerTo h (settings s.mu))))

/-! ### The commands of the mill computer -/

/-- STAGE CLEAR empties the stage; STAGE writes at the end of the stage, or is refused and leaves the
stage as it was; both resets empty it (R168). -/
def Obligations.StageCommands : Prop :=
  (∀ s : State, (∃ t, exec .powerOnReset s = .next t ∧ t.mu.stage = []) ∧
    (s.li.millRx.complete = false → ∃ t, exec .lineReset s = .next t ∧ t.mu.stage = [])) ∧
  (∀ (s : State) (h : MillHead), s.takes (millTelegram h kindStageClear []) →
    exec (.stageClear h []) s = .next (((s.received .mill h.ends).setMu { s.mu with stage := [] }).answers h
      (doneTo h kindStageClear))) ∧
  (∀ (s : State) (h : MillHead) (offset : Byte) (data : List Byte), data ≠ [] → data.length ≤ 56 →
    s.takes (millTelegram h kindStage (offset :: data)) →
    exec (.stage h (offset :: data)) s = .next
      (if offset.toNat ≠ s.mu.stage.length then
        (s.received .mill h.ends).answers h (refusedTo h kindStage .badOffset)
      else if 240 < s.mu.stage.length + data.length then
        (s.received .mill h.ends).answers h (refusedTo h kindStage .stageFull)
      else ((s.received .mill h.ends).setMu { s.mu with stage := s.mu.stage ++ data }).answers h
        (doneTo h kindStage))) ∧
  (∀ (s : State) (h : MillHead) (rest : List Byte), (rest.length < 2 ∨ 57 < rest.length) →
    s.takes (millTelegram h kindStage rest) →
    exec (.stage h rest) s = .next ((s.received .mill h.ends).answers h (refusedTo h kindStage .badLength)))

/-- CLEAR CHANGES: the tests in their order, then the flags of the mask are cleared in the record of
the address, or in every record for 0, and nothing else changes (R24). -/
def Obligations.ClearChanges : Prop :=
  ∀ (s : State) (h : MillHead) (mask sel : Byte), s.takes (millTelegram h kindClearChanges [mask, sel]) →
    exec (.clearChanges h [mask, sel]) s = .next
      (if sel ≠ 0 ∧ s.stationAt sel = none then
        (s.received .mill h.ends).answers h (refusedTo h kindClearChanges .notInUse)
      else if 16 ≤ mask.toNat then
        (s.received .mill h.ends).answers h (refusedTo h kindClearChanges .badField)
      else ((s.received .mill h.ends).setSt (s.st.map fun r =>
        if sel = 0 ∨ r.address = sel then
          { r with flags :=
            { presence := r.flags.presence && !mask.getLsbD 0
              link := r.flags.link && !mask.getLsbD 1
              resetDone := r.flags.resetDone && !mask.getLsbD 2
              errors := r.flags.errors && !mask.getLsbD 3 } }
        else r)).answers h (doneTo h kindClearChanges))

/-- ACK NOTICES clears the latched and told flags of the mask's classes and is answered DONE (R174). -/
def Obligations.AckNotices : Prop :=
  ∀ (s : State) (h : MillHead) (mask : Byte), s.takes (millTelegram h kindAckNotices [mask]) →
    exec (.ackNotices h [mask]) s = .next (((s.received .mill h.ends).setMu
      { s.mu with latched := s.mu.latched &&& ~~~mask, told := s.mu.told &&& ~~~mask }).answers h
        (doneTo h kindAckNotices))

/-- A COMMIT is refused by the first of its tests that holds, in the order of R171, and then changes
nothing. ROW: STORE BUSY; STAGE SHORT; BAD FIELD for a value out of range, a spare byte that is not 0 or
a frame that would enter use with no spindles; DUPLICATE ADDRESS; IN USE for a frame that would leave
use while DOFFING or served; LIMIT IN USE below the permits held (R173). FRAME: BAD FIELD for a frame
above 3; STORE BUSY; STAGE SHORT; BAD FIELD; DUPLICATE ADDRESS; and for a geometry field of a frame in
use, IN USE while it is served, FRAME RUNNING unless it is STANDING or ABSENT (R172). STEPS: BAD FIELD
for its range; STORE BUSY; STAGE SHORT; DUPLICATE ADDRESS while the tables in force hold an address
twice, which is log 17's reading of R171 order 5 (DEDUCED); IN USE while a channel is RUNNING (R100). -/
def Obligations.CommitRefused : Prop :=
  ∀ (s : State) (h : MillHead) (r : List Byte), r.length = 4 →
    let busy := s.mu.save = .inFlight
    let n := (byteAt r 3).toNat
    let a := (halfAt r 1).toNat
    let staged := s.mu.stage
    let five := fun x : FrameRecord => [x.drive, x.stripA, x.stripB, x.carriageA, x.carriageB]
    let twice := fun xs : List Byte => ¬ (xs.filter fun x => x != 0).Nodup
    let served := fun f : FrameNo => ∃ c, s.rc.current = some c ∧ c.bay.frame = f
    let refuses := fun (c : Instr) (x : Reason) =>
      exec c s = .next ((s.received .mill h.ends).answers h (refusedTo h kindCommit x))
    (s.takes (commitTelegram h 0 r) →
      let new := rowTableOf staged
      let old := s.mu.row.framesInUse.toNat
      let wrong := rowInRange new = false ∨ byteAt staged 13 ≠ 0 ∨ byteAt staged 14 ≠ 0 ∨
        byteAt staged 15 ≠ 0 ∨
        ∃ f : FrameNo, old ≤ f.val ∧ f.val < new.framesInUse.toNat ∧ (s.record f).spindles = 0
      let doubled := twice (new.trainAddress ::
        (allFrames.filter fun f => decide (f.val < new.framesInUse.toNat)).flatMap fun f => five (s.record f))
      let blocked := ∃ f : FrameNo, new.framesInUse.toNat ≤ f.val ∧ f.val < old ∧
        (s.frameState f = .doffing ∨ served f)
      (busy → refuses (.commitRow h r) .storeBusy) ∧
      (¬ busy → staged.length ≠ 16 → refuses (.commitRow h r) .stageShort) ∧
      (¬ busy → staged.length = 16 → rowInRange new = false → refuses (.commitRow h r) .badField) ∧
      (¬ busy → staged.length = 16 → wrong → refuses (.commitRow h r) .badField) ∧
      (¬ busy → staged.length = 16 → ¬ wrong → doubled → refuses (.commitRow h r) .duplicateAddress) ∧
      (¬ busy → staged.length = 16 → ¬ wrong → ¬ doubled → blocked → refuses (.commitRow h r) .inUse) ∧
      (¬ busy → staged.length = 16 → ¬ wrong → ¬ doubled → ¬ blocked →
        new.permitLimit.toNat < s.ds.permits → refuses (.commitRow h r) .limitInUse)) ∧
    (s.takes (commitTelegram h 1 r) →
      let new := frameRecordOf staged
      (4 ≤ (byteAt r 0).toNat → refuses (.commitFrame h r) .badField) ∧
      ((byteAt r 0).toNat < 4 → busy → refuses (.commitFrame h r) .storeBusy) ∧
      ((byteAt r 0).toNat < 4 → ¬ busy → staged.length ≠ 32 → refuses (.commitFrame h r) .stageShort) ∧
      ((byteAt r 0).toNat < 4 → ¬ busy → staged.length = 32 → frameInRange new = false →
        refuses (.commitFrame h r) .badField) ∧
      ∀ f : FrameNo, (byteAt r 0).toNat = f.val → ¬ busy → staged.length = 32 →
        let wrong := frameInRange new = false ∨ byteAt staged 5 ≠ 0 ∨ byteAt staged 23 ≠ 0 ∨
          byteAt staged 30 ≠ 0 ∨ byteAt staged 31 ≠ 0
        let doubled := twice (s.mu.row.trainAddress ::
            (allFrames.filter s.inUse).flatMap fun g => five (if g = f then new else s.record g)) ∨
          (s.inUse f = false ∧ twice (five new))
        let old := s.record f
        let geometry := s.inUse f = true ∧ (five old ≠ five new ∨ old.spindles ≠ new.spindles ∨
          old.pulseLength ≠ new.pulseLength ∨ old.maxPulses ≠ new.maxPulses ∨ old.draft ≠ new.draft ∨
          old.density ≠ new.density)
        (wrong → refuses (.commitFrame h r) .badField) ∧
        (¬ wrong → doubled → refuses (.commitFrame h r) .duplicateAddress) ∧
        (¬ wrong → ¬ doubled → geometry → served f → refuses (.commitFrame h r) .inUse) ∧
        (¬ wrong → ¬ doubled → geometry → ¬ served f → s.frameState f ≠ .standing →
          s.frameState f ≠ .absent → refuses (.commitFrame h r) .frameRunning)) ∧
    (s.takes (commitTelegram h 2 r) →
      let doubled := twice (s.mu.row.trainAddress ::
        (allFrames.filter s.inUse).flatMap fun g => five (s.record g))
      ((511 < a ∨ n = 0 ∨ 30 < n ∨ 512 < a + n) → refuses (.commitSteps h r) .badField) ∧
      (a + n ≤ 512 → 0 < n → n ≤ 30 → busy → refuses (.commitSteps h r) .storeBusy) ∧
      (a + n ≤ 512 → 0 < n → n ≤ 30 → ¬ busy → staged.length ≠ 8 * n →
        refuses (.commitSteps h r) .stageShort) ∧
      (a + n ≤ 512 → 0 < n → n ≤ 30 → ¬ busy → staged.length = 8 * n → doubled →
        refuses (.commitSteps h r) .duplicateAddress) ∧
      (a + n ≤ 512 → 0 < n → n ≤ 30 → ¬ busy → staged.length = 8 * n → ¬ doubled →
        (∃ ch, (s.channel ch).state = .running) → refuses (.commitSteps h r) .inUse))

/-- A ROW commit that passes its tests puts the staged row table in force, empties the stage, keeps
the frame records, and keeps the station table in line; answered DONE. The frames that leave use leave
it one after another in rising number (log 15), as FrameLeavesUse says; then the station table is
rebuilt when the frames in use or the train address change; then a raised permit limit evaluates the
permit arbiter: this order of the three is the model's choice, log 20. CARRIAGES IDLE is announced last
(log 13). With the frames in use and the train address as they were and the permit limit not raised it
changes nothing else (R171, R173). -/
def Obligations.CommitRow : Prop :=
  ∀ (s : State) (h : MillHead) (r : List Byte), r.length = 4 → s.takes (commitTelegram h 0 r) →
    let new := rowTableOf s.mu.stage
    let old := s.mu.row
    (∀ y ∈ s.rowTests new, y.1 = false) →
    (let x1 := (s.received .mill h.ends).setMu { s.mu with row := new, stage := [] }
      let x2 := (allFrames.filter fun f => decide (new.framesInUse.toNat ≤ f.val) &&
        decide (f.val < old.framesInUse.toNat)).foldl State.leaveUse x1
      let x3 := if old.framesInUse = new.framesInUse ∧ old.trainAddress = new.trainAddress then x2
        else x2.rebuildStations
      let x4 := if old.permitLimit.toNat < new.permitLimit.toNat then x3.permitArbiter else x3
      exec (.commitRow h r) s = .next (x4.announceIdle.answers h (doneTo h kindCommit))) ∧
    (s.stationsMatch → ∃ x : State, exec (.commitRow h r) s = .next (x.answers h (doneTo h kindCommit)) ∧
      x.mu.row = new ∧ x.mu.stage = [] ∧ x.mu.frames = s.mu.frames ∧ x.mu.store = s.mu.store ∧
      x.stationsMatch ∧ x.se.steps = s.se.steps ∧ x.sc.history = s.sc.history ∧
      (s.unwatched → new.framesInUse = s.mu.row.framesInUse → new.trainAddress = s.mu.row.trainAddress →
        new.permitLimit.toNat ≤ s.mu.row.permitLimit.toNat →
        x = (s.received .mill h.ends).setMu { s.mu with row := new, stage := [] }))

/-- A frame that leaves use with no sequence on its channel: its reference is unset and its odometer
kept, its spindles and carriages are cleared, its request and its calls are removed, it is ABSENT with
its flag clear; its marks, its shift entry and the other frames are kept (R173). -/
def Obligations.FrameLeavesUse : Prop :=
  ∀ (s : State) (f : FrameNo), (s.channel (frameChannel f)).state ≠ .running →
    let t := s.leaveUse f
    t = { s with di := t.di, spt := t.spt, pd := t.pd, ds := { s.ds with queue := t.ds.queue },
                 rc := { s.rc with bays := t.rc.bays, calls := t.rc.calls }, fm := t.fm } ∧
    t.di.get f = { s.di.get f with reference := none } ∧ t.spt.get f = .fresh ∧
    (∀ sd, t.carriage f sd = .fresh) ∧ t.ds.queue = (s.ds.queue.filter fun g => g != f) ∧
    t.rc.calls = (s.rc.calls.filter fun b => b.frame != f) ∧
    (∀ sd i, t.bay ⟨f, sd, i⟩ = ⟨(s.bay ⟨f, sd, i⟩).mark, .none, none⟩) ∧ t.fm.get f = ⟨.absent, false⟩ ∧
    ∀ g, g ≠ f → t.di.get g = s.di.get g ∧ t.spt.get g = s.spt.get g ∧ t.fm.get g = s.fm.get g ∧
      (∀ sd, t.carriage g sd = s.carriage g sd) ∧ ∀ sd i, t.bay ⟨g, sd, i⟩ = s.bay ⟨g, sd, i⟩

/-- A FRAME commit that passes its tests puts the staged record in force for its frame, empties the
stage and keeps the station table in line. One that changes live fields only changes nothing else. One
that changes another geometry field unsets the reference and sets the bays full; one that changes
addresses or spindles per side clears the spindles, the carriages and the request too. Answered DONE.
The last two are said with no sequence under way and the train not free (R171, R172). -/
def Obligations.CommitFrame : Prop :=
  ∀ (s : State) (h : MillHead) (r : List Byte) (f : FrameNo), r.length = 4 →
    s.takes (commitTelegram h 1 r) → (byteAt r 0).toNat = f.val → s.stationsMatch → s.unwatched →
    let new := frameRecordOf s.mu.stage
    let still := s.trainFree = false ∧ ∀ ch, (s.channel ch).phase = none ∧ (s.channel ch).state ≠ .running
    (∀ y ∈ s.frameTests f new, y.1 = false) →
    ∃ x : State, exec (.commitFrame h r) s = .next (x.answers h (doneTo h kindCommit)) ∧
      x.mu.frames.get f = new ∧ (∀ g, g ≠ f → x.mu.frames.get g = s.mu.frames.get g) ∧
      x.mu.stage = [] ∧ x.mu.row = s.mu.row ∧ x.stationsMatch ∧
      (geometryChanged (s.record f) new = false →
        x = (s.received .mill h.ends).setMu x.mu ∧ x.mu.latched = s.mu.latched) ∧
      (still → geometryChanged (s.record f) new = true →
        x.di.get f = { s.di.get f with reference := none } ∧ x.ds.marks = s.ds.marks ∧
        ∀ sd i, (x.bay ⟨f, sd, i⟩).mark = s.odometer f) ∧
      (still → layoutChanged (s.record f) new = true → x.spt.get f = .fresh ∧
        (∀ sd, x.carriage f sd = .fresh) ∧ f ∉ x.ds.queue)

/-- A STEPS commit that passes its tests, with no address twice in the tables in force, writes its words
from the address on, keeps the others and empties the stage; answered DONE (R100, R171). -/
def Obligations.CommitSteps : Prop :=
  ∀ (s : State) (h : MillHead) (r : List Byte), r.length = 4 → s.takes (commitTelegram h 2 r) →
    s.unwatched →
    let a := (halfAt r 1).toNat
    let n := (byteAt r 3).toNat
    a + n ≤ 512 → 0 < n → n ≤ 30 → s.mu.save ≠ .inFlight → s.mu.stage.length = 8 * n →
    ((s.mu.row.trainAddress :: (allFrames.filter s.inUse).flatMap fun g =>
      let x := s.record g
      [x.drive, x.stripA, x.stripB, x.carriageA, x.carriageB]).filter fun x => x != 0).Nodup →
    (∀ ch, (s.channel ch).state ≠ .running) →
    ∃ v : Vector StepWord 512,
      exec (.commitSteps h r) s = .next ((((s.received .mill h.ends).setSe { s.se with steps := v }).setMu
        { s.mu with stage := [] }).answers h (doneTo h kindCommit)) ∧
      (∀ (i : Fin 512), i.val < a ∨ a + n ≤ i.val → v.get i = s.se.steps.get i) ∧
      (∀ (i : Fin 512) (k : Nat), k < n → i.val = a + k →
        v.get i = stepWordOf ((s.mu.stage.drop (8 * k)).take 8))

/-- STATION RESET of a station of any role, in any link state: RESETTING, its link timer stopped, and a
RESET offered for it, which enters unless 32 orders for other stations wait (log 31). It is then the last
of its orders: it waits as the last order for the address, or an idle transmitter has taken it and no
other order waits for the address (R14, R27). STATION DISABLE of a station not DISABLED: DISABLED, its
link timer stopped, LINK set; of one that is, nothing (R29). NOT IN USE for an address that holds no
record. CARRIAGES IDLE is announced last (log 13). Either leaves the other blocks as StationLeft says: a COMMAND step that waited for an ACTIVE
station ends STATION LOST (R118); with no step on it, a drive's frame is ABSENT unless DOFFING (R31), and
a carriage's in-hand spindle is returned at once (R95). -/
def Obligations.StationResetAndDisable : Prop :=
  (∀ (s : State) (h : MillHead) (a : Byte), s.takes (millTelegram h kindStationReset [a]) →
      (s.stationAt a = none → exec (.stationReset h [a]) s =
        .next ((s.received .mill h.ends).answers h (refusedTo h kindStationReset .notInUse))) ∧
      (∀ r, s.stationAt a = some r → ∃ (x y : State) (n : Nat),
        exec (.stationReset h [a]) s = .next (x.answers h (doneTo h kindStationReset)) ∧
        x.stationAt a = some { r with link := .resetting, timer := .stopped, resetOrder := some n } ∧
        x = (y.offerOrder a .reset).announceIdle ∧ y.orders = n ∧
        (y.orderEnters a .reset = true ↔ (y.li.floorOrders.filter fun o => o.station != a).length < 32) ∧
        (y.orderEnters a .reset = true →
          (x.li.floorOrders.filter fun o : Order => o.station == a).getLast? = some ⟨n, a, .reset⟩ ∨
            (x.li.floorTx = some (.order ⟨n, a, .reset⟩ true) ∧ ∀ o ∈ x.li.floorOrders, o.station ≠ a)) ∧
        (r.role ≠ .carriage → r.link ≠ .active → s.unwatched → s.li.floorTx ≠ none →
          (∀ o ∈ s.li.floorOrders, o.station = a → o.body = .reset) →
          (s.li.floorOrders.filter fun o : Order => o.station != a).length < 32 →
          x.li.floorOrders = (s.li.floorOrders.filter fun o : Order => o.station != a) ++
            ([⟨n, a, .reset⟩] : List Order)) ∧
        StationLeft s x r .resetting ∧ (∀ b, b ≠ a → x.stationAt b = s.stationAt b))) ∧
  (∀ (s : State) (h : MillHead) (a : Byte), s.takes (millTelegram h kindStationDisable [a]) →
      (s.stationAt a = none → exec (.stationDisable h [a]) s =
        .next ((s.received .mill h.ends).answers h (refusedTo h kindStationDisable .notInUse))) ∧
      (∀ r, s.stationAt a = some r → r.link = .disabled → exec (.stationDisable h [a]) s =
        .next ((s.received .mill h.ends).answers h (doneTo h kindStationDisable))) ∧
      (∀ r, s.stationAt a = some r → r.link ≠ .disabled → ∃ x : State,
        exec (.stationDisable h [a]) s = .next (x.answers h (doneTo h kindStationDisable)) ∧
        x.stationAt a = some { r with
          link := .disabled, timer := .stopped, flags := { r.flags with link := true } } ∧
        x.mu.latched.getLsbD 0 = true ∧ StationLeft s x r .disabled ∧
        ∀ b, b ≠ a → x.stationAt b = s.stationAt b))

/-- SPINDLE RELEASE: the refusals in their order; a LOCKED spindle goes to BROKEN with attempts and
rebreaks 0 and is offered: it is QUEUED when its side has a carriage with room, and nothing is issued
while the frame is not SPINNING (R76, R83). -/
def Obligations.SpindleRelease : Prop :=
  ∀ (s : State) (h : MillHead) (fb hi lo : Byte), s.takes (millTelegram h kindSpindleRelease [fb, hi, lo]) →
    let p := (half hi lo).toNat
    let refuses := fun x : Reason => exec (.spindleRelease h [fb, hi, lo]) s =
      .next ((s.received .mill h.ends).answers h (refusedTo h kindSpindleRelease x))
    (4 ≤ fb.toNat → refuses .badField) ∧
    (∀ f : FrameNo, fb.toNat = f.val →
      (s.inUse f = false → refuses .notInUse) ∧
      (s.inUse f = true → 2 * s.perSide f ≤ p → refuses .badField) ∧
      (s.inUse f = true → p < 2 * s.perSide f → (s.spindle f p).state ≠ .locked → refuses .notLocked) ∧
      (s.inUse f = true → p < 2 * s.perSide f → (s.spindle f p).state = .locked → p < 1536 → s.unwatched →
        s.frameState f ≠ .spinning →
        ∃ x : State, exec (.spindleRelease h [fb, hi, lo]) s = .next (x.answers h (doneTo h kindSpindleRelease)) ∧
          x.spindle f p = { s.spindle f p with
            attempts := 0
            rebreaks := 0
            state := if s.inService f (s.sideOf f p) = true ∧ (s.carriage f (s.sideOf f p)).list.length < 32
              then .queued else .broken } ∧
          ((s.inService f (s.sideOf f p) = true ∧ (s.carriage f (s.sideOf f p)).list.length < 32) →
            (x.carriage f (s.sideOf f p)).list = insertEntry ⟨p, false⟩ (s.carriage f (s.sideOf f p)).list) ∧
          (∀ q, q ≠ p → x.spindle f q = s.spindle f q) ∧ x.sc = s.sc))

/-- DOFF NOW: the refusals in their order; else the request enters at the back of the doff queue, and
with no permit free it stays there. With a permit free it is granted: the permits held rise, the frame
becomes DOFFING and its doff starts on its channel; said for a list that begins with a WAIT (R127,
R129, R130). -/
def Obligations.DoffNow : Prop :=
  ∀ (s : State) (h : MillHead) (fb : Byte), s.takes (millTelegram h kindDoffNow [fb]) →
    let refuses := fun x : Reason => exec (.doffNow h [fb]) s =
      .next ((s.received .mill h.ends).answers h (refusedTo h kindDoffNow x))
    (4 ≤ fb.toNat → refuses .badField) ∧
    (∀ f : FrameNo, fb.toNat = f.val →
      (s.inUse f = false → refuses .notInUse) ∧
      (s.inUse f = true → s.frameState f = .absent → refuses .absent) ∧
      (s.inUse f = true → s.frameState f = .doffing → refuses .doffing) ∧
      (s.inUse f = true → (s.frameState f = .spinning ∨ s.frameState f = .standing) →
        (f ∈ s.ds.queue → refuses .pending) ∧
        (f ∉ s.ds.queue → (s.channel (frameChannel f)).state = .ended → refuses .ended) ∧
        (f ∉ s.ds.queue → (s.channel (frameChannel f)).state ≠ .ended → s.unwatched →
          s.mu.row.permitLimit.toNat ≤ s.ds.permits →
          exec (.doffNow h [fb]) s = .next (((s.received .mill h.ends).setDs
            { s.ds with queue := s.ds.queue ++ [f] }).answers h (doneTo h kindDoffNow))) ∧
        (s.ds.queue = [] → (s.channel (frameChannel f)).state = .idle → s.served f = false → s.unwatched →
          s.ds.permits < s.mu.row.permitLimit.toNat →
          let a := (s.record f).doffStart.toNat
          let w := s.stepAt a
          stepKind? w = some .wait → w.limit ≠ 0 → w.bayFlag = false → w.note = false →
          ∃ x : State, exec (.doffNow h [fb]) s = .next (x.answers h (doneTo h kindDoffNow)) ∧
            x.ds = { s.ds with permits := s.ds.permits + 1 } ∧
            x.fm.get f = { s.fm.get f with state := .doffing } ∧
            (∀ g, g ≠ f → x.fm.get g = s.fm.get g) ∧
            (x.channel (frameChannel f)).state = .running ∧ (x.channel (frameChannel f)).cause = some .doff ∧
            (x.channel (frameChannel f)).address = some a ∧ (x.channel (frameChannel f)).phase = some .timing ∧
            (x.channel (frameChannel f)).timer = .running (10 * w.limit.toNat) ∧
            (x.channel (frameChannel f)).stack = Vector.replicate 4 a ∧
            (x.channel (frameChannel f)).ending = none ∧
            (∀ sd, x.carriage f sd = { s.carriage f sd with park := .stopped }) ∧
            (∀ c, c ≠ frameChannel f → x.channel c = s.channel c) ∧
            x.spt = s.spt ∧ x.rc = s.rc ∧ x.st = s.st ∧ x.di = s.di ∧ x.sc = s.sc)))

/-- START SEQUENCE: the refusals in their order; else the channel starts at the address with cause
MANAGEMENT and its first step is begun (R103, R104). Said whole for a first step that waits: a WAIT of
some time runs its timer (R107), and one that is noted makes its note (R113). Then the walk: the begin
checks in their order, and what a failed one ends in (R105); which steps take no time (R106); the
conditions of an AWAIT (R109); and what each kind does once begun: END and WAIT (R107), COMMAND (R108),
AWAIT, JUMP, CALL and RETURN with the return stack (R110, R111), MARK (R112), and what follows a step
that completes (R116). A walk of one event begins at most 17 steps (R106). A COMMAND whose telegram does
not enter the queue ends STATION LOST as one whose telegram is removed (R118; for want of a place the
model's choice, log 31). -/
def Obligations.StartSequence : Prop :=
  (∀ (s : State) (h : MillHead) (cb hi lo : Byte), s.takes (millTelegram h kindStartSequence [cb, hi, lo]) →
    let a := (half hi lo).toNat
    let refuses := fun x : Reason => exec (.startSequence h [cb, hi, lo]) s =
      .next ((s.received .mill h.ends).answers h (refusedTo h kindStartSequence x))
    ((5 ≤ cb.toNat ∨ 511 < a) → refuses .badField) ∧
    (∀ ch : ChannelNo, cb.toNat = ch.val → a ≤ 511 →
      (s.channelOutOfUse ch = true → refuses .notInUse) ∧
      (s.channelOutOfUse ch = false → (s.channel ch).state = .running → refuses .busy) ∧
      (s.channelOutOfUse ch = false → (s.channel ch).state = .ended → refuses .ended) ∧
      (s.channelOutOfUse ch = false → (s.channel ch).state = .idle → s.unwatched →
        stepKind? (s.stepAt a) = some .wait → (s.stepAt a).limit ≠ 0 → (s.stepAt a).bayFlag = false →
        let noted := (s.stepAt a).note
        let x := (s.received .mill h.ends).setChannel ch
          { s.channel ch with
            state := .running
            cause := some .management
            address := some a
            phase := some .timing
            timer := .running (10 * (s.stepAt a).limit.toNat)
            stack := Vector.replicate 4 a
            pointer := 0
            runCount := 0
            jump := false
            noteSeen := noted
            noteAddress := if noted then some a else none
            ending := none
            lastReport := none
            residual := none
            order := none }
        exec (.startSequence h [cb, hi, lo]) s = .next
          ((if noted then x.latch .progress else x).answers h (doneTo h kindStartSequence))) ∧
      (s.channelOutOfUse ch = false → (s.channel ch).state = .idle →
        let x := (s.received .mill h.ends).setChannel ch
          { s.channel ch with
            state := .running
            cause := some .management
            address := some a
            phase := none
            timer := .stopped
            stack := Vector.replicate 4 a
            pointer := 0
            runCount := 0
            jump := false
            noteSeen := false
            noteAddress := none
            ending := none
            lastReport := none
            residual := none
            order := none }
        let y := State.walkSteps 17 ch a true x
        exec (.startSequence h [cb, hi, lo]) s = .next
          ((if (y.channel ch).state = .running then y else y.handEnding ch).announceIdle.answers h
            (doneTo h kindStartSequence))))) ∧
  (∀ (s : State) (ch : ChannelNo) (first : Bool) (w : StepWord),
    let k := stepKind? w
    let c := s.channel ch
    let onFrame := channelFrame ch ≠ none
    let reads := k = some .command ∨ k = some .wait ∨ k = some .await ∨ k = some .mark
    (s.takesNoTime ch w = true ↔
      k = some .jump ∨ k = some .call ∨ k = some .ret ∨ k = some .mark ∨ (k = some .wait ∧ w.limit = 0) ∨
        (k = some .await ∧ s.channelAwait ch w = true)) ∧
    (∀ f, channelFrame ch = some f → (s.channelAwait ch w = true ↔
      (w.argument = 1 ∧ isActive (s.stationOf .drive (some f) none) = true ∧ (s.fm.get f).running = false) ∨
        (w.argument = 2 ∧ isActive (s.stationOf .drive (some f) none) = true ∧ (s.fm.get f).running = true) ∨
        (w.argument = 3 ∧ ∀ sd, s.inService f sd = true → (s.carriage f sd).inHand = none))) ∧
    s.beginFailure ch first w =
      if k = none then some .sequenceCheck
      else if k = some .jump ∧ (first = true ∨ c.jump = true) then some .sequenceCheck
      else if (k = some .command ∨ k = some .await) ∧ w.limit = 0 then some .sequenceCheck
      else if onFrame ∧ reads ∧ w.bayFlag = true then some .sequenceCheck
      else if k = some .await ∧ (¬ onFrame ∨ (w.argument ≠ 1 ∧ w.argument ≠ 2 ∧ w.argument ≠ 3)) then
        some .sequenceCheck
      else if k = some .mark ∧ w.argument ≠ (if onFrame then 1 else 2) then some .sequenceCheck
      else if ((k = some .jump ∨ k = some .call) ∧ 511 < w.argument.toNat) ∨
          (k = some .ret ∧ c.stack.get (c.pointer - 1) = 512) then some .sequenceCheck
      else if k = some .command ∧ (∀ x, target? w.target = some x → (x.1 = .train ↔ onFrame)) then
        some .sequenceCheck
      else if ¬ onFrame ∧ ((k = some .command ∧ w.bayFlag = true) ∨ k = some .mark) ∧ s.rc.current = none then
        some .sequenceCheck
      else if k = some .command ∧ (∀ x, target? w.target = some x →
          isActive (s.stationOf x.1 (channelFrame ch) x.2) = false) then some .stationLost
      else if s.takesNoTime ch w = true ∧ c.runCount = 16 then some .sequenceCheck
      else none) ∧
  (∀ (n : Nat) (s : State) (ch : ChannelNo) (a : Nat) (first : Bool),
    let w := s.stepAt a
    let k := stepKind? w
    let c := s.channel ch
    let walk := State.walkSteps (n + 1) ch a first s
    (∀ e, s.beginFailure ch first w = some e → walk = s.endSequence ch a e) ∧
    (s.beginFailure ch first w = none →
      let noted := decide (k = some .command ∨ k = some .wait ∨ k = some .await ∨ k = some .mark) && w.note
      let x0 := s.setChannel ch
        { c with
          address := some a
          phase := none
          noteSeen := noted || c.noteSeen
          noteAddress := if noted = true then some a else c.noteAddress
          jump := decide (k = some .jump)
          runCount := if s.takesNoTime ch w = true then c.runCount + 1 else c.runCount }
      let x := if noted = true then x0.latch .progress else x0
      let d := x.channel ch
      let after := fun y : State =>
        if w.chain = false then y.endSequence ch a .normal
        else if 511 < a + 1 then y.endSequence ch a .sequenceCheck
        else State.walkSteps n ch (a + 1) false y
      (k = some .endStep → walk = x.endSequence ch a .normal) ∧
      (∀ r, k = some .command → s.targetStation ch w = some r →
        let b := .stepCommand ch (w.argument.extractLsb' 8 8) (w.argument.extractLsb' 0 8)
          (if w.bayFlag = true ∧ channelFrame ch = none then s.rc.current.map (·.bay) else none)
        (s.orderEnters r.address b = true → walk = (x.setChannel ch { d with
          phase := some .waiting, order := some s.orders, runCount := 0 }).offerOrder r.address b) ∧
        (s.orderEnters r.address b = false → walk = x.endSequence ch a .stationLost)) ∧
      (k = some .wait → w.limit = 0 → walk = after x) ∧
      (k = some .wait → w.limit ≠ 0 → walk = x.setChannel ch { d with
        phase := some .timing, timer := .running (10 * w.limit.toNat), runCount := 0 }) ∧
      (k = some .await → s.channelAwait ch w = true → walk = after x) ∧
      (k = some .await → s.channelAwait ch w = false → walk = x.setChannel ch { d with
        phase := some .watching, timer := .running (10 * w.limit.toNat), runCount := 0 }) ∧
      (k = some .jump → walk = State.walkSteps n ch w.argument.toNat false x) ∧
      (k = some .call → walk = State.walkSteps n ch w.argument.toNat false (x.setChannel ch { d with
        stack := c.stack.set c.pointer.val (a + 1) c.pointer.isLt, pointer := c.pointer + 1 })) ∧
      (k = some .ret → walk = State.walkSteps n ch (c.stack.get (c.pointer - 1)) false
        (x.setChannel ch { d with pointer := c.pointer - 1 })) ∧
      (k = some .mark → (∀ f, channelFrame ch = some f → walk = after (x.doffMark f)) ∧
        (channelFrame ch = none → walk = after x.exchangeMark))))

/-- HALT SEQUENCE: the refusals; a RUNNING sequence of cause MANAGEMENT ends HALTED with its step in hand
as the last step, its waiting STEP COMMAND is removed, SEQUENCE ENDED is latched, and the channel is
ENDED (R119, R120, R122). A halted doff takes its frame out of DOFFING and releases its permit (R135),
and a halted exchange settles its bay (R150); said with no request pending and, for the doff, no call
listed. What any ending does on its channel is said of State.endSequence, steps 1 to 3 of R120. CLEAR
ENDING: the refusals; an ENDED channel becomes IDLE and its ending record is kept; with no doff request
pending and no call listed nothing starts on it. When the train channel becomes IDLE, the train arbiter
serves the oldest URGENT call: its bay becomes SERVING and current and the exchange starts (R121, R145,
R146). -/
def Obligations.HaltAndClearEnding : Prop :=
  (∀ (s : State) (h : MillHead) (cb : Byte), s.takes (millTelegram h kindHaltSequence [cb]) →
      let refuses := fun x : Reason => exec (.haltSequence h [cb]) s =
        .next ((s.received .mill h.ends).answers h (refusedTo h kindHaltSequence x))
      (5 ≤ cb.toNat → refuses .badField) ∧
      (∀ ch : ChannelNo, cb.toNat = ch.val →
        ((s.channel ch).state ≠ .running → refuses .notRunning) ∧
        (∀ a, (s.channel ch).state = .running → (s.channel ch).address = some a →
          (s.channel ch).cause = some .management →
          (∀ g, frameChannel g ≠ ch → (s.channel (frameChannel g)).phase ≠ some .watching) →
          ∃ x : State, exec (.haltSequence h [cb]) s = .next (x.answers h (doneTo h kindHaltSequence)) ∧
            (x.channel ch).state = .ended ∧ (x.channel ch).address = none ∧ (x.channel ch).phase = none ∧
            (x.channel ch).timer = .stopped ∧ (x.channel ch).stack = (s.channel ch).stack ∧
            (∃ e, (x.channel ch).ending = some e ∧ e.condition = .halted ∧ e.lastStep = a ∧
              e.nextStep = a + 1 ∧ e.lastReport = (s.channel ch).lastReport ∧
              e.noteSeen = (s.channel ch).noteSeen ∧ e.noteAddress = (s.channel ch).noteAddress ∧
              e.cause = some .management ∧
              (∀ n, (s.channel ch).timer = .running (10 * n) → e.residual = some n) ∧
              ((s.channel ch).timer = .stopped → e.residual = (s.channel ch).residual)) ∧
            x.mu.latched = s.mu.latched ||| 4#8 ∧
            x.li.floorOrders = s.li.floorOrders.filter (fun o => !isStepOf ch o) ∧
            (∀ c, c ≠ ch → x.channel c = s.channel c) ∧ x.fm = s.fm ∧ x.st = s.st ∧ x.pd = s.pd ∧
            x.spt = s.spt ∧ x.ds = s.ds ∧ x.rc = s.rc ∧ x.sc = s.sc ∧ x.di = s.di) ∧
        (∀ f a, ch = frameChannel f → (s.channel ch).state = .running → (s.channel ch).address = some a →
          (s.channel ch).cause = some .doff → s.ds.queue = [] → s.rc.calls = [] →
          (∀ g, g ≠ f → (s.channel (frameChannel g)).phase ≠ some .watching) →
          ∃ x : State, exec (.haltSequence h [cb]) s = .next (x.answers h (doneTo h kindHaltSequence)) ∧
            (x.channel ch).state = .ended ∧
            (∃ e, (x.channel ch).ending = some e ∧ e.condition = .halted ∧ e.lastStep = a ∧
              e.cause = some .doff) ∧
            (∀ c, c ≠ ch → x.channel c = s.channel c) ∧ DoffEnded s x f) ∧
        (∀ b a, ch = trainChannel → (s.channel ch).state = .running → (s.channel ch).address = some a →
          (s.channel ch).cause = some .exchange → s.rc.current = some b → s.ds.queue = [] → s.unwatched →
          ∃ x : State, exec (.haltSequence h [cb]) s = .next (x.answers h (doneTo h kindHaltSequence)) ∧
            (x.channel ch).state = .ended ∧
            (∃ e, (x.channel ch).ending = some e ∧ e.condition = .halted ∧ e.lastStep = a ∧
              e.cause = some .exchange) ∧
            (∀ c, c ≠ ch → x.channel c = s.channel c) ∧ ExchangeEnded s x b))) ∧
  (∀ (s : State) (ch : ChannelNo) (a : Nat) (e : EndCondition),
      let c := s.channel ch
      let left := match c.timer with
        | .running n => some (tenths n)
        | _ => c.residual
      let x := (s.setChannel ch
        { c with
          state := if e = .normal then .idle else .ended
          cause := none
          address := none
          phase := none
          timer := .stopped
          runCount := 0
          residual := left
          order := none
          ending := some ⟨e, a, a + 1, c.lastReport, left, c.noteSeen, c.noteAddress, c.cause⟩ }).setLi
        { s.li with floorOrders := s.li.floorOrders.filter fun o => !isStepOf ch o }
      s.endSequence ch a e =
        if e = .normal then x else x.setMu { s.mu with latched := s.mu.latched ||| 4#8 }) ∧
  (∀ (s : State) (h : MillHead) (cb : Byte), s.takes (millTelegram h kindClearEnding [cb]) →
      let refuses := fun x : Reason => exec (.clearEnding h [cb]) s =
        .next ((s.received .mill h.ends).answers h (refusedTo h kindClearEnding x))
      (5 ≤ cb.toNat → refuses .badField) ∧
      (∀ ch : ChannelNo, cb.toNat = ch.val →
        ((s.channel ch).state ≠ .ended → refuses .notEnded) ∧
        ((s.channel ch).state = .ended → s.unwatched → s.ds.queue = [] → s.rc.calls = [] →
          exec (.clearEnding h [cb]) s = .next (((s.received .mill h.ends).setChannel ch
            { s.channel ch with state := .idle }).answers h (doneTo h kindClearEnding))) ∧
        (∀ b rest, ch = trainChannel → (s.channel ch).state = .ended → s.unwatched →
          s.mu.row.trainAddress ≠ 0 → isActive (s.stationOf .train none none) = true →
          s.rc.calls = b :: rest → (s.bay b).cls = .urgent → s.frameState b.frame ≠ .doffing →
          let a := s.mu.row.exchangeStart.toNat
          let w := s.stepAt a
          stepKind? w = some .wait → w.limit ≠ 0 → w.note = false →
          ∃ x : State, exec (.clearEnding h [cb]) s = .next (x.answers h (doneTo h kindClearEnding)) ∧
            x.rc.current = some ⟨b, false⟩ ∧ x.bay b = { s.bay b with cls := .serving } ∧
            (∀ c, c ≠ b → x.bay c = s.bay c) ∧ x.rc.calls = rest.filter (fun c => c != b) ∧
            x.rc.counter = s.rc.counter ∧ (x.channel ch).state = .running ∧
            (x.channel ch).cause = some .exchange ∧ (x.channel ch).address = some a ∧
            (x.channel ch).phase = some .timing ∧ (x.channel ch).timer = .running (10 * w.limit.toNat) ∧
            (∀ c, c ≠ ch → x.channel c = s.channel c) ∧
            x.spt = s.spt ∧ x.pd = s.pd ∧ x.fm = s.fm ∧ x.ds = s.ds ∧ x.st = s.st ∧ x.sc = s.sc)))

/-! ### Shift output -/

/-- SHIFT CLOSE: the figures of each frame in use, by the formulas; the record closed and placed at
position 1 of the ring, the others moved back and a fifth dropped; a new record opened with the next
number; every shift breaks count 0; nothing else changed; answered DONE. -/
def Obligations.ShiftClose : Prop :=
  ∀ (s : State) (h : MillHead), s.takes (millTelegram h kindShiftClose []) →
    ∃ (x : State) (c : ShiftRecord), exec (.shiftClose h []) s = .next (x.answers h (doneTo h kindShiftClose)) ∧
      x = ((s.received .mill h.ends).setSc x.sc).setSpt x.spt ∧
      x.sc.current = .fresh (s.sc.current.number + 1) ∧ x.sc.second = s.sc.second ∧
      x.sc.history = (c :: s.sc.history).take 4 ∧
      c = { s.sc.current with state := .closed, entries := c.entries } ∧
      (∀ f, s.inUse f = false → c.entries.get f = { s.sc.current.entries.get f with figures := none }) ∧
      (∀ f, s.inUse f = true →
        let e := s.sc.current.entries.get f
        let n := 2 * s.perSide f
        let figures : Figures :=
          { mass := BitVec.ofNat 32 (min ((e.massUnits.toNat + 50000000) / 100000000) (2 ^ 32 - 1))
            efficiency := BitVec.ofNat 16 (if n * e.advance.toNat = 0 then 0 else
              min (1000 * e.spindleLength.toNat / (n * e.advance.toNat)) 1000)
            breakRate := BitVec.ofNat 16 (if n * e.spinSeconds.toNat = 0 then 0 else
              min (e.breaks.toNat * 3600000 / (n * e.spinSeconds.toNat)) 65535) }
        c.entries.get f = { e with figures := some figures }) ∧
      (∀ f p, x.spindle f p = { s.spindle f p with shiftBreaks := 0 }) ∧
      ∀ f, x.runningCount f = s.runningCount f

/-- The second timer's expiry adds one open second, and a spin-second to each frame in use that is
SPINNING, and restarts the timer; the power-on reset starts it, and neither SHIFT CLOSE nor a line
reset stops or restarts it (R157). -/
def Obligations.SecondTimer : Prop :=
  (∀ (s : State) (n : Nat), s.sc.second = .running n → ∃ t : State, exec .secondTimerExpiry s = .next t ∧
    t = s.setSc t.sc ∧ t.sc.second = .running 100 ∧ t.sc.history = s.sc.history ∧
    t.sc.current = { s.sc.current with
      openSeconds := satAdd s.sc.current.openSeconds 1, entries := t.sc.current.entries } ∧
    ∀ f, t.sc.current.entries.get f =
      if s.inUse f = true ∧ s.frameState f = .spinning then
        { s.sc.current.entries.get f with
          spinSeconds := satAdd (s.sc.current.entries.get f).spinSeconds 1 }
      else s.sc.current.entries.get f) ∧
  (∀ s : State, ∃ t, exec .powerOnReset s = .next t ∧ t.sc.second = .running 100) ∧
  (∀ (s : State) (h : MillHead), s.takes (millTelegram h kindShiftClose []) →
    ∃ t, exec (.shiftClose h []) s = .next t ∧ t.sc.second = s.sc.second) ∧
  (∀ s : State, s.li.millRx.complete = false → ∃ t, exec .lineReset s = .next t ∧ t.sc.second = s.sc.second)

/-! ### Stations -/

/-- A telegram whose kind the sender's role may not send, from an ACTIVE station: its silence timer is
restarted, its error count rises by one, holding at 65535, ERRORS is set and STATION CHANGE latched,
and no owner acts on it. A rise that takes the count to an error limit not 0 resets the station (R7,
R23, R25, R26). -/
def Obligations.ErrorsOfAStation : Prop :=
  (∀ (s : State) (h : FloorHead) (kind : Byte) (body : List Byte) (r : StationRecord),
      s.ready .floor (floorTelegram h kind body) → s.stationAt h.src = some r → r.link = .active →
      kindAllowed kind r.role = false → s.unwatched →
      (s.mu.row.errorLimit = 0 ∨ (satAdd r.errorCount 1).toNat < s.mu.row.errorLimit.toNat) →
      ∃ x : State, exec (.unknownKind h kind body) s = .next (State.thenEnded .floor x.tellNotices h.ends) ∧
        x = ((s.received .floor h.ends).setSt x.st).setMu { s.mu with latched := s.mu.latched ||| 1#8 } ∧
        x.stationAt h.src = some { r with
          timer := .running (10 * silenceLimit s.mu.row r.role)
          errorCount := satAdd r.errorCount 1
          flags := { r.flags with errors := true } } ∧
        ∀ b, b ≠ h.src → x.stationAt b = s.stationAt b) ∧
  (∀ (s : State) (a : Byte) (r : StationRecord), s.stationAt a = some r → r.link = .active →
      s.mu.row.errorLimit ≠ 0 → s.mu.row.errorLimit.toNat ≤ (satAdd r.errorCount 1).toNat →
      ∃ n, (s.countError a).stationAt a = some { r with
        link := .resetting
        timer := .stopped
        errorCount := satAdd r.errorCount 1
        flags := { r.flags with errors := true }
        resetOrder := some n })

/-- A RESET REPORT: from a RESETTING station it ends the reset, with error count 0 and RESET DONE; from an
ABSENT or SILENT one it is a join and a restart; from an ACTIVE one a restart that renews liveness. Of a
drive that joins so, the frame is STANDING unless DOFFING, with the flag clear and the reference unset
(R31, R32, R40), said where no AWAIT waits and no doff can be granted; of an ACTIVE drive the frame keeps
its state, and the condition is announced to its AWAIT, CARRIAGES IDLE last (R34, R109, log 13). A station
in RESETTING that sends anything else is ignored (R20, R21, R28). -/
def Obligations.ResetReport : Prop :=
  (∀ (s : State) (h : FloorHead) (r : StationRecord),
      s.ready .floor (floorTelegram h kindResetReport []) → s.stationAt h.src = some r →
      (r.link ≠ .disabled → ∃ t : State, exec (.resetReport h []) s = .next t ∧
        t.stationAt h.src = some { r with
          link := .active
          errorCount := if r.link = .active then r.errorCount else 0
          timer := .running (10 * silenceLimit s.mu.row r.role)
          flags :=
            { presence := r.flags.presence || r.link == .absent
              link := r.flags.link || r.link == .silent
              resetDone := true
              errors := r.flags.errors } } ∧
        ∀ b, b ≠ h.src → t.stationAt b = s.stationAt b) ∧
      (r.link = .active → r.role = .drive → ∀ f, r.frame = some f → s.unwatched →
        ∃ t : State, exec (.resetReport h []) s = .next t ∧ (t.fm.get f).running = false ∧
          t.frameState f = s.frameState f ∧ t.di.get f = { s.di.get f with reference := none }) ∧
      (r.link = .active → r.role = .drive → ∀ f, r.frame = some f →
        exec (.resetReport h []) s = .next (State.thenEnded .floor ((((((s.renewed h r).setFlag h.src
          .resetDone).setFrameItem f ⟨s.frameState f, false⟩).setDelivery f
            { s.di.get f with reference := none }).watchFrame f).announceIdle.tellNotices) h.ends)) ∧
      (r.link ≠ .active → r.link ≠ .disabled → r.role = .drive → ∀ f, r.frame = some f → s.unwatched →
        s.mu.row.permitLimit.toNat ≤ s.ds.permits →
        ∃ t : State, exec (.resetReport h []) s = .next t ∧
          t.fm.get f = ⟨if s.frameState f = .doffing then .doffing else .standing, false⟩ ∧
          t.di.get f = { s.di.get f with reference := none } ∧
          ∀ g, g ≠ f → t.fm.get g = s.fm.get g ∧ t.di.get g = s.di.get g)) ∧
  (∀ (c : Instr) (s : State) (t : Telegram) (e : TelegramEnd) (r : StationRecord),
      arrivalOf c = some (.floor, t, e) → t.mark = .station → t.dst = 255 → s.ready .floor t →
      s.stationAt t.src = some r → r.link = .resetting → isResetReport t = false → s.unwatched →
      exec c s = .next (State.thenEnded .floor (s.received .floor e).tellNotices e))

/-- The silence timer of an ACTIVE station expires: SILENT, its link timer stopped, LINK set and STATION
CHANGE latched (R22). It leaves the other blocks as StationLeft says: a COMMAND step that waited for it
ends STATION LOST (R118); with no step on it, a drive's frame is ABSENT unless DOFFING (R31), and a
carriage keeps its in-hand spindle unless its PIECE ORDER was removed with it (R95). The reset wait of a
RESETTING station expires: ABSENT, its link timer stopped, PRESENCE set and STATION CHANGE latched (R28).
That an expiry named in another link state, where the
timer does not run, gives nothing is the model's choice, log 29. -/
def Obligations.LinkTimerExpiries : Prop :=
  (∀ (s : State) (a : Byte) (r : StationRecord), s.stationAt a = some r →
      (∀ n, r.link = .active → r.timer = .running n →
        ∃ t : State, exec (.silenceTimerExpiry a) s = .next t ∧
          t.stationAt a = some { r with
            link := .silent, timer := .stopped, flags := { r.flags with link := true } } ∧
          t.mu.latched.getLsbD 0 = true ∧ (∀ b, b ≠ a → t.stationAt b = s.stationAt b) ∧
          StationLeft s t r .silent ∧ ∀ f, r.role = .drive → r.frame = some f →
            (t.fm.get f).running = false ∧ (t.di.get f).reference = none) ∧
      (r.link ≠ .active → s.unwatched → exec (.silenceTimerExpiry a) s = .next s.tellNotices)) ∧
  (∀ (s : State) (a : Byte) (r : StationRecord), s.stationAt a = some r →
      (∀ n, r.link = .resetting → r.timer = .running n →
        ∃ t : State, exec (.resetWaitExpiry a) s = .next t ∧
          t.stationAt a = some { r with
            link := .absent, timer := .stopped, flags := { r.flags with presence := true } } ∧
          t.mu.latched.getLsbD 0 = true ∧ ∀ b, b ≠ a → t.stationAt b = s.stationAt b) ∧
      (r.link ≠ .resetting → s.unwatched → exec (.resetWaitExpiry a) s = .next s.tellNotices))

/-! ### Delivery -/

/-- A well-formed DELIVERY REPORT from an ACTIVE drive: the drive-running flag (R32), the resynchronising
of an unset reference (R39), the delta and the held delta with ODOMETER JUMP (R41, R42), the length, the
remainder and the odometer (R43, R44), the reference, the last speed and the accrual (R45). Then the
odometer's announcement (R48), for a frame already SPINNING that stays so, with no permit free and the
train not free: a due frame with no request, its channel not ENDED, enters the doff queue (R126), and
each due bay of class NONE receives a PLANNED call, side A then side B in ascending index (R142). The frame
is SPINNING for RUNNING or SLOW, STANDING for STOPPED or FAULT, DOFFING kept (R31), of an ACTIVE drive and of
one that joins by the report, whose count only resynchronises (R39, R40): said where no AWAIT waits and no
doff can be granted. The Frame Monitor announces the change before the length is added (R34, R38), and
CARRIAGES IDLE is announced last (log 13); that an AWAIT which the report completes is taken before the
length is added is the model's choice, log 34. -/
def Obligations.DeliveryReport : Prop :=
  (∀ (s : State) (h : FloorHead) (body : List Byte) (r : StationRecord) (f : FrameNo) (b : DeliveryBody),
    s.ready .floor (floorTelegram h kindDeliveryReport body) → s.stationAt h.src = some r →
    r.link = .active → r.role = .drive → r.frame = some f → delivery? body = some b →
    let d := s.di.get f
    let rec' := s.record f
    let e := s.sc.current.entries.get f
    ∃ t : State, exec (.deliveryReport h body) s = .next t ∧
      (t.di.get f).reference = some b.count ∧ (t.di.get f).lastSpeed = some b.speed ∧
      (∀ g, g ≠ f → t.di.get g = s.di.get g) ∧
      (t.fm.get f).running = (b.drive == .running || b.drive == .slow) ∧
      (d.reference = none → (t.di.get f).odometer = d.odometer ∧ (t.di.get f).remainder = d.remainder ∧
        (t.sc.current.entries.get f).advance = e.advance ∧
        (t.sc.current.entries.get f).spindleLength = e.spindleLength ∧
        (t.sc.current.entries.get f).massUnits = e.massUnits) ∧
      (∀ ref, d.reference = some ref →
        let delta := (b.count.toNat + 65536 - ref.toNat) % 65536
        let used := if rec'.maxPulses.toNat < delta then 0 else delta
        let u := used * rec'.pulseLength.toNat + d.remainder.val
        let len := u / 1000
        (rec'.maxPulses.toNat < delta → t.mu.latched.getLsbD 5 = true) ∧
        (t.di.get f).odometer.toNat = (d.odometer.toNat + len) % 1099511627776 ∧
        (t.di.get f).remainder.val = u % 1000 ∧
        (t.sc.current.entries.get f).advance.toNat = min (e.advance.toNat + len) 1099511627775 ∧
        (t.sc.current.entries.get f).spindleLength.toNat =
          min (e.spindleLength.toNat + len * s.runningCount f) 281474976710655 ∧
        (t.sc.current.entries.get f).massUnits.toNat =
          min (e.massUnits.toNat + len * s.runningCount f * rec'.density.toNat) 18446744073709551615)) ∧
  (∀ (s : State) (h : FloorHead) (body : List Byte) (r : StationRecord) (f : FrameNo) (b : DeliveryBody),
    s.ready .floor (floorTelegram h kindDeliveryReport body) → s.stationAt h.src = some r →
    r.link = .active → r.role = .drive → r.frame = some f → delivery? body = some b →
    (b.drive = .running ∨ b.drive = .slow) → s.frameState f = .spinning → s.unwatched →
    s.mu.row.permitLimit.toNat ≤ s.ds.permits → s.trainFree = false →
    ∃ t : State, exec (.deliveryReport h body) s = .next t ∧
      let enters := t.doffDue f = true ∧ (s.channel (frameChannel f)).state ≠ .ended ∧ f ∉ s.ds.queue
      let called := (frameBays f).filter fun c => s.isBay c && decide ((s.bay c).cls = .none) && t.bayDue c
      t.ds = { s.ds with queue := if enters then s.ds.queue ++ [f] else s.ds.queue } ∧
      t.rc.calls = s.rc.calls ++ called ∧ t.rc.current = s.rc.current ∧
      t.rc.counter = s.rc.counter + BitVec.ofNat 32 called.length ∧
      (∀ (k : Nat) c, called[k]? = some c →
        t.bay c = ⟨(s.bay c).mark, .planned, some (s.rc.counter + BitVec.ofNat 32 k)⟩) ∧
      (∀ c, c ∉ called → t.bay c = s.bay c) ∧ t.fm.get f = ⟨.spinning, true⟩ ∧
      t.spt = s.spt ∧ t.pd = s.pd ∧ t.se = s.se) ∧
  (∀ (s : State) (h : FloorHead) (body : List Byte) (r : StationRecord) (f : FrameNo) (b : DeliveryBody),
    s.ready .floor (floorTelegram h kindDeliveryReport body) → s.stationAt h.src = some r →
    r.role = .drive → r.frame = some f → delivery? body = some b →
    let turns := b.drive == .running || b.drive == .slow
    let item : FrameItem := ⟨if s.frameState f = .doffing then .doffing
      else if turns then .spinning else .standing, turns⟩
    (r.link = .active → exec (.deliveryReport h body) s = .next (State.thenEnded .floor
      ((((((s.renewed h r).setFrameItem f item).announceFrame f (s.frameState f)).integrate f
        b).announceOdometer f).announceIdle.tellNotices) h.ends)) ∧
    (r.link = .active ∨ r.link = .absent ∨ r.link = .silent → s.unwatched →
      s.mu.row.permitLimit.toNat ≤ s.ds.permits → ∃ t : State, exec (.deliveryReport h body) s = .next t ∧
        t.fm.get f = item ∧ (∀ g, g ≠ f → t.fm.get g = s.fm.get g) ∧
        (r.link ≠ .active →
          t.di.get f = { s.di.get f with reference := some b.count, lastSpeed := some b.speed } ∧
          t.stationAt h.src = some { r with
            link := .active
            errorCount := 0
            timer := .running (10 * silenceLimit s.mu.row r.role)
            flags := { r.flags with
              presence := r.flags.presence || r.link == .absent
              link := r.flags.link || r.link == .silent } })))

/-- The gauge and the roving estimate (R50, R51): differences of odometer values modulo 2^40. The marks that
set them back. DOFF MARK: every spindle of the frame is folded if RUNNING and its cop set to 0, the doff
mark set to the odometer, the doffs count raised, a pending request removed, nothing else changed
(R133). EXCHANGE MARK: the current bay's mark set to the odometer, its call removed, the exchanges
count raised, the bay marked; with no spindle of it STARVED nothing else changes; with some, and no
carriage in service on its side, these become BROKEN (R149). -/
def Obligations.GaugeAndEstimate : Prop :=
  (∀ (s : State) (f : FrameNo) (sd : Side) (i : Fin 16),
    let odo := (s.odometer f).toNat
    let adv := (odo + 1099511627776 - (s.bay ⟨f, sd, i⟩).mark.toNat) % 1099511627776
    let used := adv * 100 / (s.record f).draft.toNat
    s.gauge f = (odo + 1099511627776 - (s.ds.marks.get f).toNat) % 1099511627776 ∧
    (s.doffDue f = true ↔ (s.record f).doffLength.toNat * 1000 ≤ s.gauge f) ∧
    s.bayRemaining ⟨f, sd, i⟩ =
      (if used ≤ (s.record f).bayFull.toNat * 1000 then (s.record f).bayFull.toNat * 1000 - used else 0) ∧
    (s.bayDue ⟨f, sd, i⟩ = true ↔ s.bayRemaining ⟨f, sd, i⟩ ≤ (s.record f).reserve.toNat * 1000)) ∧
  (∀ (s : State) (f : FrameNo), 2 * s.perSide f ≤ 1536 →
    let t := s.doffMark f
    let odo := s.odometer f
    t = { s with spt := t.spt, ds := t.ds, sc := t.sc } ∧
    (∀ p, p < 2 * s.perSide f → t.spindle f p =
      match (s.spindle f p).state, (s.spindle f p).runMark with
      | .running, some _ => { s.spindle f p with cop := 0, runMark := some odo }
      | _, _ => { s.spindle f p with cop := 0 }) ∧
    (∀ p, 2 * s.perSide f ≤ p → t.spindle f p = s.spindle f p) ∧ t.runningCount f = s.runningCount f ∧
    (∀ g, g ≠ f → t.spt.get g = s.spt.get g) ∧
    t.ds.marks.get f = odo ∧ (∀ g, g ≠ f → t.ds.marks.get g = s.ds.marks.get g) ∧
    t.ds.queue = (s.ds.queue.filter fun g => g != f) ∧ t.ds.permits = s.ds.permits ∧
    t.sc.current.entries.get f = { s.sc.current.entries.get f with
      doffs := satAdd (s.sc.current.entries.get f).doffs 1 } ∧
    (∀ g, g ≠ f → t.sc.current.entries.get g = s.sc.current.entries.get g) ∧
    t.sc = { s.sc with current := { s.sc.current with entries := t.sc.current.entries } }) ∧
  (∀ (s : State) (c : CurrentBay), s.rc.current = some c →
    let f := c.bay.frame
    let t := s.exchangeMark
    let starved := fun p => p ∈ s.bayPositions c.bay ∧ (s.spindle f p).state = .starved
    ((∀ p, ¬ starved p) ∨ s.inService f c.bay.side = false) →
    (∀ p ∈ s.bayPositions c.bay, s.sideOf f p = c.bay.side ∧ p < 1536) →
    t = { s with spt := t.spt, rc := t.rc, sc := t.sc } ∧
    t.rc.current = some { c with marked := true } ∧ t.rc.counter = s.rc.counter ∧
    t.rc.calls = (s.rc.calls.filter fun b => b != c.bay) ∧ t.bay c.bay = ⟨s.odometer f, .none, none⟩ ∧
    (∀ b, b ≠ c.bay → t.bay b = s.bay b) ∧
    t.sc.current.entries.get f = { s.sc.current.entries.get f with
      exchanges := satAdd (s.sc.current.entries.get f).exchanges 1 } ∧
    (∀ g, g ≠ f → t.sc.current.entries.get g = s.sc.current.entries.get g) ∧
    t.sc = { s.sc with current := { s.sc.current with entries := t.sc.current.entries } } ∧
    (∀ p, starved p → t.spindle f p = { s.spindle f p with state := .broken }) ∧
    (∀ p, ¬ starved p → t.spindle f p = s.spindle f p) ∧ (∀ g, t.runningCount g = s.runningCount g) ∧
    ∀ g, g ≠ f → t.spt.get g = s.spt.get g)

/-! ### Spindles -/

/-- A SECTION REPORT of all YARN, read for spindles that are in no list and no hand: each one not RUNNING
joins, the running count rises by their number, and nothing else changes but the strip's silence timer.
One of a frame not SPINNING renews the strip's liveness and changes no spindle. One of any codes, of a
frame that is SPINNING, takes its 24 codes one after another, each as BreaksAndDashes says; one whose
body is no section report, or whose section lies beyond the side, is an error of the strip; both then
announce CARRIAGES IDLE (log 13) and tell the owed notices (R25, R65, R68, R69, R70). -/
def Obligations.SectionReport : Prop :=
  (∀ (s : State) (h : FloorHead) (body : List Byte) (r : StationRecord) (f : FrameNo) (sd : Side)
      (b : SectionBody),
      s.ready .floor (floorTelegram h kindSectionReport body) → s.stationAt h.src = some r →
      r.link = .active → r.role = .strip → r.frame = some f → r.side = some sd →
      sectionBody? body = some b → b.index < s.perSide f / 24 → 2 * s.perSide f ≤ 1536 →
      s.frameState f = .spinning → s.unwatched → (∀ c ∈ b.codes, c = .yarn) →
      let first := s.sideFirst f sd + 24 * b.index
      (∀ p, first ≤ p → p < first + 24 → (s.spindle f p).state ≠ .queued ∧ (s.spindle f p).state ≠ .piecing) →
      ∃ x : State, exec (.sectionReport h body) s = .next (State.thenEnded .floor x.tellNotices h.ends) ∧
        x = ((s.received .floor h.ends).setSt x.st).setSpt x.spt ∧
        x.stationAt h.src = some { r with timer := .running (10 * silenceLimit s.mu.row r.role) } ∧
        (∀ c, c ≠ h.src → x.stationAt c = s.stationAt c) ∧
        (∀ g, g ≠ f → x.spt.get g = s.spt.get g) ∧
        x.runningCount f = s.runningCount f +
          ((numbersFrom first 24).filter fun p => decide ((s.spindle f p).state ≠ .running)).length ∧
        (∀ p, p < first ∨ first + 24 ≤ p → x.spindle f p = s.spindle f p) ∧
        ∀ p, first ≤ p → p < first + 24 → x.spindle f p =
          if (s.spindle f p).state = .running then s.spindle f p
          else { s.spindle f p with
            state := .running
            runMark := some (s.odometer f)
            pieceMark := s.odometer f
            attempts := 0
            rebreaks := if (s.spindle f p).state = .unseen ∨ (s.spindle f p).state = .locked then 0
              else (s.spindle f p).rebreaks }) ∧
  (∀ (s : State) (h : FloorHead) (body : List Byte) (r : StationRecord) (f : FrameNo) (sd : Side)
      (b : SectionBody),
      s.ready .floor (floorTelegram h kindSectionReport body) → s.stationAt h.src = some r →
      r.link = .active → r.role = .strip → r.frame = some f → r.side = some sd →
      sectionBody? body = some b → b.index < s.perSide f / 24 → s.frameState f ≠ .spinning → s.unwatched →
      ∃ x : State, exec (.sectionReport h body) s = .next (State.thenEnded .floor x.tellNotices h.ends) ∧
        x = (s.received .floor h.ends).setSt x.st ∧
        (∀ c, c ≠ h.src → x.stationAt c = s.stationAt c) ∧
        x.stationAt h.src = some { r with timer := .running (10 * silenceLimit s.mu.row r.role) }) ∧
  (∀ (s : State) (h : FloorHead) (body : List Byte) (r : StationRecord) (f : FrameNo) (sd : Side),
      s.ready .floor (floorTelegram h kindSectionReport body) → s.stationAt h.src = some r →
      r.link = .active → r.role = .strip → r.frame = some f → r.side = some sd →
      let y := s.renewed h r
      let ends := fun x : State => exec (.sectionReport h body) s =
        .next (State.thenEnded .floor x.announceIdle.tellNotices h.ends)
      (∀ b, sectionBody? body = some b → b.index < s.perSide f / 24 → s.frameState f = .spinning →
        ends (((numbersFrom (s.sideFirst f sd + 24 * b.index) 24).zip b.codes).foldl (State.takeCode f) y)) ∧
      ((∀ b, sectionBody? body = some b → s.perSide f / 24 ≤ b.index) → ends (y.countError h.src)))

/-- A break event: the fold, the counts, the rebreak check and the state reached (R71, R72); the codes that
a spindle's state gives nothing to do, the dashes of R70 and PIECING; and every other entry of the table
of R70, with what the state reached hands on (R73): a break that locks latches LOCKOUT; a spindle that
enters BROKEN is offered (R83); one that enters STARVED calls its bay (R143); one that leaves a list has
the list refilled and issue evaluated (R84, as CarriageReport says). -/
def Obligations.BreaksAndDashes : Prop :=
  (∀ (s : State) (f : FrameNo) (p : Nat) (target : SpindleState) (m : Mm), p < 1536 →
      (s.spindle f p).state = .running → (s.spindle f p).runMark = some m →
      let t := s.breakSpindle f p target
      let r := s.spindle f p
      let n := if ((s.odometer f).toNat + 1099511627776 - r.pieceMark.toNat) % 1099511627776 <
          (s.record f).rebreakLength.toNat * 1000 then min (r.rebreaks.toNat + 1) 7 else 0
      (t.spindle f p).state = (if (s.record f).rebreakLimit.toNat ≤ n then .locked else target) ∧
      (t.spindle f p).rebreaks.toNat = n ∧ (t.spindle f p).runMark = none ∧
      (t.spindle f p).pieceMark = r.pieceMark ∧ (t.spindle f p).attempts = r.attempts ∧
      (t.spindle f p).cop.toNat = min (r.cop.toNat +
        ((s.odometer f).toNat + 1099511627776 - m.toNat) % 1099511627776) 4294967295 ∧
      (t.spindle f p).shiftBreaks.toNat = min (r.shiftBreaks.toNat + 1) 255 ∧
      t.runningCount f = s.runningCount f - 1 ∧
      (t.sc.current.entries.get f).breaks = satAdd (s.sc.current.entries.get f).breaks 1 ∧
      (∀ q, q ≠ p → t.spindle f q = s.spindle f q) ∧
      t = (s.setSpt t.spt).setSc t.sc) ∧
  (∀ (s : State) (f : FrameNo) (p : Nat) (c : SpindleCode),
      let st := (s.spindle f p).state
      (st = .piecing ∨ (st = .unseen ∧ c = .braked) ∨ (st = .running ∧ c = .yarn) ∨
        ((st = .broken ∨ st = .queued) ∧ (c = .down ∨ c = .braked)) ∨
        (st = .starved ∧ (c = .braked ∨ c = .noRoving)) ∨ (st = .locked ∧ c ≠ .yarn)) →
      State.takeCode f s (p, c) = s) ∧
  (∀ (s : State) (f : FrameNo) (p : Nat),
      let st := (s.spindle f p).state
      let sd := s.sideOf f p
      let take := fun c : SpindleCode => State.takeCode f s (p, c)
      let broken := s.breakSpindle f p .broken
      let starved := s.breakSpindle f p .starved
      let unlisted := fun x : State => x.setCarriage f sd { s.carriage f sd with
        list := (s.carriage f sd).list.filter fun e => e.position != p }
      ((st = .unseen ∨ st = .broken ∨ st = .starved ∨ st = .locked) → take .yarn = s.joinSpindle f p) ∧
      ((st = .unseen ∨ st = .starved) →
        take .down = (s.setSpindleState f p .broken).offerSpindle f p) ∧
      ((st = .unseen ∨ st = .broken) → take .noRoving = (s.setSpindleState f p .starved).starved f p) ∧
      (st = .running → p < 1536 → ∀ c, (c = .down ∨ c = .braked) → take c =
        if (broken.spindle f p).state = .locked then broken.latch .lockout else broken.offerSpindle f p) ∧
      (st = .running → p < 1536 → take .noRoving =
        if (starved.spindle f p).state = .locked then starved.latch .lockout else starved.starved f p) ∧
      (st = .queued → take .yarn =
        ((unlisted (s.joinSpindle f p)).refillOnly f sd).evalIssue f sd) ∧
      (st = .queued → take .noRoving =
        (((unlisted (s.setSpindleState f p .starved)).refillOnly f sd).evalIssue f sd).starved f p)) ∧
  (∀ (s : State) (f : FrameNo) (p : Nat),
      let c := s.carriage f (s.sideOf f p)
      let b := s.bayOf f p
      let urgent := fun x : State => (x.setMu { s.mu with latched := s.mu.latched ||| 0x10#8 }).trainArbiter
      ((s.inService f (s.sideOf f p) = false ∨ 32 ≤ c.list.length) → s.offerSpindle f p = s) ∧
      (s.inService f (s.sideOf f p) = true → c.list.length < 32 → s.offerSpindle f p =
        ((s.setCarriage f (s.sideOf f p) { c with list := insertEntry ⟨p, false⟩ c.list }).setSpindle f p
          { s.spindle f p with state := .queued }).evalIssue f (s.sideOf f p)) ∧
      (((s.bay b).cls = .urgent ∨ (s.bay b).cls = .serving) → s.starved f p = s) ∧
      ((s.bay b).cls = .planned → s.starved f p = urgent (s.setBay b { s.bay b with cls := .urgent })) ∧
      ((s.bay b).cls = .none → s.starved f p = urgent (s.setRc
        { s.rc with
          bays := putAt s.rc.bays (bayIx b) { s.bay b with cls := .urgent, stamp := some s.rc.counter }
          calls := s.rc.calls ++ [b]
          counter := s.rc.counter + 1 })))

/-! ### Piecing -/

/-- A well-formed CARRIAGE REPORT from an ACTIVE carriage stores its position, direction and state. One
whose outcome PIECED answers the hand, with an empty list and the frame not SPINNING: the spindle
joins, the pieced count rises, the hand is emptied and the piecing timer stopped. Then the four steps of
any report (R89), a stray outcome being an error of the carriage (R91); the five outcomes for the spindle
in hand (R90), said where no flag that the return could answer is set; the choice of R84 and R86, the
issue (R85, R87), the refill (R84) and the park timer (R93). A spindle whose PIECE ORDER does not enter
the queue goes back as one whose order is removed (R95; for want of a place the model's choice, log 31). -/
def Obligations.CarriageReport : Prop :=
  (∀ (s : State) (h : FloorHead) (body : List Byte) (r : StationRecord) (f : FrameNo) (sd : Side)
    (b : CarriageBody),
    s.ready .floor (floorTelegram h kindCarriageReport body) → s.stationAt h.src = some r →
    r.link = .active → r.role = .carriage → r.frame = some f → r.side = some sd →
    carriage? body = some b → s.carriageBodyFits f sd b = true →
    (∃ t : State, exec (.carriageReport h body) s = .next t ∧
      (t.carriage f sd).position = some b.position ∧ (t.carriage f sd).direction = b.direction ∧
      (t.carriage f sd).lastState = some b.state) ∧
    (∀ p k, b.outcome = some (.pieced, p) → (s.carriage f sd).inHand = some k → k.position = p →
      k.phase = .sent → p < 1536 → (s.carriage f sd).list = [] → s.frameState f ≠ .spinning → s.unwatched →
      ∃ x : State, exec (.carriageReport h body) s = .next (State.thenEnded .floor x.tellNotices h.ends) ∧
        x.carriage f sd = { s.carriage f sd with
          inHand := none
          position := some b.position
          direction := b.direction
          lastState := some b.state
          ready := (s.carriage f sd).ready || b.state == .ready
          parked := (s.carriage f sd).parked || b.state == .parked
          piecing := .stopped
          park := .stopped } ∧
        x.spindle f p = { s.spindle f p with
          state := .running
          runMark := some (s.odometer f)
          pieceMark := s.odometer f
          attempts := 0
          rebreaks := if (s.spindle f p).state = .unseen ∨ (s.spindle f p).state = .locked then 0
            else (s.spindle f p).rebreaks } ∧
        x.runningCount f = s.runningCount f + 1 ∧
        x.sc.current.entries.get f = { s.sc.current.entries.get f with
          pieced := satAdd (s.sc.current.entries.get f).pieced 1 } ∧
        ∀ q, q ≠ p → x.spindle f q = s.spindle f q)) ∧
  (∀ (s : State) (h : FloorHead) (body : List Byte) (r : StationRecord) (f : FrameNo) (sd : Side)
    (b : CarriageBody),
    s.ready .floor (floorTelegram h kindCarriageReport body) → s.stationAt h.src = some r →
    r.link = .active → r.role = .carriage → r.frame = some f → r.side = some sd →
    carriage? body = some b → s.carriageBodyFits f sd b = true →
    let y := s.renewed h r
    let y1 := y.setCarriage f sd { s.carriage f sd with
      position := some b.position, direction := b.direction, lastState := some b.state }
    let answers := fun p => ∃ k, (s.carriage f sd).inHand = some k ∧ k.position = p ∧ k.phase = .sent
    let flags := fun x : State => x.setCarriage f sd { x.carriage f sd with
      ready := (x.carriage f sd).ready || b.state == .ready
      parked := (x.carriage f sd).parked || b.state == .parked }
    let ends := fun x : State => exec (.carriageReport h body) s =
      .next (State.thenEnded .floor x.announceIdle.tellNotices h.ends)
    (b.outcome = none → ends ((flags y1).evalIssue f sd)) ∧
    (∀ o p, b.outcome = some (o, p) → answers p → ends ((flags (y1.takeOutcome f sd o p)).evalIssue f sd)) ∧
    (∀ o p, b.outcome = some (o, p) → ¬ answers p → ends (((flags y1).evalIssue f sd).countError h.src))) ∧
  (∀ (s : State) (f : FrameNo) (sd : Side) (p : Nat), p < 1536 →
    (s.carriage f sd).ready = false → (s.carriage f sd).parked = false →
    let c := s.carriage f sd
    let cleared := c.list.map fun e => { e with deferred := false }
    let room := c.list.length < 32
    let e := s.sc.current.entries.get f
    let n := min ((s.spindle f p).attempts.toNat + 1) 7
    let limit := (s.record f).attemptLimit.toNat
    let gives := fun (t : State) (record : SpindleRecord) (list : List ListEntry) (entry : ShiftEntry) =>
      t.spindle f p = record ∧ (∀ q, q ≠ p → t.spindle f q = s.spindle f q) ∧
      (t.carriage f sd).list = list ∧ (t.carriage f sd).inHand = none ∧ (t.carriage f sd).piecing = .stopped ∧
      t.sc.current.entries.get f = entry ∧ ∀ g, g ≠ f → t.sc.current.entries.get g = s.sc.current.entries.get g
    let counted := { e with failed := satAdd e.failed 1 }
    let t := fun o => s.takeOutcome f sd o p
    (gives (t .pieced) { s.spindle f p with
        state := .running
        runMark := some (s.odometer f)
        pieceMark := s.odometer f
        attempts := 0
        rebreaks := if (s.spindle f p).state = .unseen ∨ (s.spindle f p).state = .locked then 0
          else (s.spindle f p).rebreaks } cleared { e with pieced := satAdd e.pieced 1 } ∧
      (t .pieced).runningCount f = s.runningCount f + 1) ∧
    (room → gives (t .notYet) { s.spindle f p with state := .queued } (insertEntry ⟨p, true⟩ c.list) e) ∧
    (¬ room → gives (t .notYet) { s.spindle f p with state := .broken } c.list e) ∧
    (∃ x : State, t .noRoving = x.starved f p ∧ gives x { s.spindle f p with state := .starved } cleared e ∧
      x = (s.setPd x.pd).setSpt x.spt) ∧
    (gives (t .notPossible) { s.spindle f p with state := .locked } cleared
        { e with lockouts := satAdd e.lockouts 1 } ∧
      (t .notPossible).mu.latched = s.mu.latched ||| 2#8) ∧
    (limit ≤ n → gives (t .failed) { s.spindle f p with state := .locked, attempts := BitVec.ofNat 3 n }
        cleared { counted with lockouts := satAdd e.lockouts 1 } ∧
      (t .failed).mu.latched = s.mu.latched ||| 2#8) ∧
    (n < limit → room → gives (t .failed) { s.spindle f p with state := .queued, attempts := BitVec.ofNat 3 n }
      (insertEntry ⟨p, false⟩ cleared) counted) ∧
    (n < limit → ¬ room → gives (t .failed)
      { s.spindle f p with state := .broken, attempts := BitVec.ofNat 3 n } cleared counted)) ∧
  (∀ (s : State) (f : FrameNo) (sd : Side),
    let c := s.carriage f sd
    let at_ := c.position.getD (s.sideFirst f sd)
    let way := if c.position = none then .up else c.direction
    let free := (c.list.filter fun e => !e.deferred).map (·.position)
    let held := (c.list.filter fun e => e.deferred).map (·.position)
    let broken := (s.sidePositions f sd).filter fun p => (s.spindle f p).state == .broken
    let issues := s.inService f sd = true ∧ s.carriageActive f sd = true ∧ c.inHand = none ∧
      (c.ready = true ∨ c.parked = true) ∧ s.frameState f = .spinning ∧ c.list ≠ []
    let parks := s.inService f sd = true ∧ s.carriageActive f sd = true ∧ c.inHand = none ∧ c.list = [] ∧
      s.frameState f = .spinning ∧ c.parked = false
    (issues → (c.list.map (·.position)).Pairwise (· < ·) →
      ∃ p, reachedFirst way at_ (if free = [] then held else free) p ∧
        let a := carriageAddress (s.record f) sd
        let b := .pieceOrder f sd p ((s.spindle f p).attempts.toNat + 1)
        let taken := (s.setSpindleState f p .piecing).setCarriage f sd
          { c with
            list := c.list.filter fun e => e.position != p
            inHand := some ⟨p, (s.spindle f p).attempts.toNat + 1, .waiting, s.orders⟩
            ready := false
            parked := false
            park := .stopped }
        (s.orderEnters a b = true → s.evalIssue f sd = (taken.offerOrder a b).refillOnly f sd) ∧
        (s.orderEnters a b = false →
          let y := taken.refillOnly f sd
          let d := { y.carriage f sd with inHand := none, piecing := .stopped }
          s.evalIssue f sd =
            if d.list.length < 32 then
              (y.setCarriage f sd { d with list := insertEntry ⟨p, false⟩ d.list }).setSpindleState f p .queued
            else (y.setCarriage f sd d).setSpindleState f p .broken)) ∧
    (¬ issues → s.evalIssue f sd = s.setCarriage f sd { c with
      park := if parks then
          (if c.park = .stopped then
            (if (s.record f).parkTime = 255 then .endless else .running (100 * (s.record f).parkTime.toNat))
          else c.park)
        else .stopped }) ∧
    (c.list.length < 32 → broken ≠ [] → ∃ p, reachedFirst way at_ broken p ∧
      s.refillOnly f sd = (s.setCarriage f sd { c with list := insertEntry ⟨p, false⟩ c.list }).setSpindle f p
        { s.spindle f p with state := .queued }) ∧
    ((32 ≤ c.list.length ∨ broken = []) → s.refillOnly f sd = s))

/-- The piecing timer expires. A carriage that is not ACTIVE: the spindle goes back to the list, or to
BROKEN when the list is full, without an attempt or a count. An ACTIVE carriage: a FAILED outcome,
with attempts and the failed count up, LOCKED at the limit and back to the list below it, the deferred
flags cleared, and the carriage's error count up; said with room in the list, neither flag set and the
error limit off (R25, R90, R92). -/
def Obligations.PiecingExpiry : Prop :=
  (∀ (s : State) (f : FrameNo) (sd : Side) (k : InHand) (n : Nat), s.unwatched →
      (s.carriage f sd).piecing = .running n → (s.carriage f sd).inHand = some k →
      s.carriageActive f sd = false → k.position < 1536 →
      let room := (s.carriage f sd).list.length < 32
      ∃ x : State, exec (.piecingTimerExpiry f sd) s = .next x.tellNotices ∧
        x = (s.setPd x.pd).setSpt x.spt ∧
        x.carriage f sd = { s.carriage f sd with
          inHand := none
          piecing := .stopped
          park := .stopped
          list := if room then insertEntry ⟨k.position, false⟩ (s.carriage f sd).list
            else (s.carriage f sd).list } ∧
        x.spindle f k.position = { s.spindle f k.position with state := if room then .queued else .broken } ∧
        ∀ q, q ≠ k.position → x.spindle f q = s.spindle f q) ∧
  (∀ (s : State) (f : FrameNo) (sd : Side) (k : InHand) (n : Nat) (r : StationRecord), s.unwatched →
      (s.carriage f sd).piecing = .running n → (s.carriage f sd).inHand = some k →
      s.stationOf .carriage (some f) (some sd) = some r → r.link = .active →
      s.stationAt (carriageAddress (s.record f) sd) = some r → k.position < 1536 →
      (s.carriage f sd).ready = false → (s.carriage f sd).parked = false → s.mu.row.errorLimit = 0 →
      (s.carriage f sd).list.length < 32 →
      let a := min ((s.spindle f k.position).attempts.toNat + 1) 7
      let locked := (s.record f).attemptLimit.toNat ≤ a
      let cleared := (s.carriage f sd).list.map fun e => { e with deferred := false }
      ∃ x : State, exec (.piecingTimerExpiry f sd) s = .next x.tellNotices ∧
        (x.spindle f k.position).attempts.toNat = a ∧
        (x.spindle f k.position).state = (if locked then .locked else .queued) ∧
        (x.carriage f sd).inHand = none ∧ (x.carriage f sd).piecing = .stopped ∧
        (x.carriage f sd).list = (if locked then cleared else insertEntry ⟨k.position, false⟩ cleared) ∧
        x.sc.current.entries.get f = { s.sc.current.entries.get f with
          failed := satAdd (s.sc.current.entries.get f).failed 1
          lockouts := if locked then satAdd (s.sc.current.entries.get f).lockouts 1
            else (s.sc.current.entries.get f).lockouts } ∧
        x.stationAt r.address = some { r with
          errorCount := satAdd r.errorCount 1, flags := { r.flags with errors := true } } ∧
        x.mu.latched = s.mu.latched ||| (if locked then 3#8 else 1#8))

/-- The park timer expires: a PARK ORDER to the carriage is offered, the parked flag is set and the
timer stopped (R93). That an expiry named while the timer stands, or while one started from 255 runs,
gives nothing is the model's choice, log 29. -/
def Obligations.ParkExpiry : Prop :=
  ∀ (s : State) (f : FrameNo) (sd : Side), s.unwatched →
    (∀ n, (s.carriage f sd).park = .running n →
      exec (.parkTimerExpiry f sd) s = .next ((s.offerOrder (carriageAddress (s.record f) sd)
        .parkOrder).setCarriage f sd
          { s.carriage f sd with parked := true, park := .stopped }).tellNotices) ∧
    (((s.carriage f sd).park = .stopped ∨ (s.carriage f sd).park = .endless) →
      exec (.parkTimerExpiry f sd) s = .next s.tellNotices)

/-! ### Sequences -/

/-- A STEP REPORT that matches the COMMAND step of the station's channel, of cause MANAGEMENT, and ends
the sequence: REFUSED ends it REFUSED, a checked quantity that differs without SLACK ends it SHORT,
and a completed step without CHAIN ends it NORMAL. The report is the last report (R114, R115, R119).
The same of a doff, whose frame then leaves DOFFING and whose permit is free (R135), and of an
exchange, whose bay is settled (R150): a NORMAL ending said for a marked bay and no call listed. A completed
step with CHAIN goes on at the next address for DONE and at the one after it for DONE-ADVANCE, or ends the
sequence SEQUENCE CHECK above 511 (R115, R116). Any other report of an ACTIVE station, stray or wrong in its
body, counts an error against it, and changes no channel, said where no AWAIT waits and below the error
limit (R25, R26, R114). CARRIAGES IDLE is announced last (log 13). -/
def Obligations.StepReportEnds : Prop :=
  (∀ (s : State) (h : FloorHead) (body : List Byte) (r : StationRecord) (b : StepBody) (a : Nat),
    s.ready .floor (floorTelegram h kindStepReport body) → s.stationAt h.src = some r →
    r.link = .active → stepReport? body = some b →
    let ch := stationChannel r
    let w := s.stepAt a
    (s.channel ch).state = .running → (s.channel ch).phase = some .sent → (s.channel ch).address = some a →
    (s.channel ch).cause = some .management → target? w.target = some (r.role, r.side) → w.action = b.echo →
    s.unwatched → s.ds.queue = [] → s.rc.calls = [] →
    let short := w.quantity ≠ 0 ∧ b.quantity ≠ w.quantity ∧ w.slack = false
    (b.result = .refused ∨ short ∨ w.chain = false) →
    ∃ x : State, exec (.stepReport h body) s = .next (State.thenEnded .floor x.tellNotices h.ends) ∧
      (x.channel ch).state = (if b.result = .refused ∨ short then .ended else .idle) ∧
      (∃ e, (x.channel ch).ending = some e ∧ e.lastStep = a ∧ e.nextStep = a + 1 ∧
        e.condition = (if b.result = .refused then .refused else if short then .short else .normal) ∧
        e.lastReport = some ⟨b.result, b.quantity⟩ ∧ e.cause = some .management) ∧
      (x.channel ch).phase = none ∧ (x.channel ch).timer = .stopped ∧
      (∀ c, c ≠ ch → x.channel c = s.channel c) ∧ x.spt = s.spt ∧ x.pd = s.pd ∧ x.ds = s.ds ∧ x.rc = s.rc) ∧
  (∀ (s : State) (h : FloorHead) (body : List Byte) (r : StationRecord) (b : StepBody) (a : Nat),
    s.ready .floor (floorTelegram h kindStepReport body) → s.stationAt h.src = some r →
    r.link = .active → stepReport? body = some b →
    let ch := stationChannel r
    let w := s.stepAt a
    (s.channel ch).state = .running → (s.channel ch).phase = some .sent → (s.channel ch).address = some a →
    target? w.target = some (r.role, r.side) → w.action = b.echo → s.unwatched → s.ds.queue = [] →
    let short := w.quantity ≠ 0 ∧ b.quantity ≠ w.quantity ∧ w.slack = false
    let bad := b.result = .refused ∨ short
    let condition : EndCondition := if b.result = .refused then .refused else if short then .short else .normal
    let ends := fun (cause : StartCause) (x : State) =>
      exec (.stepReport h body) s = .next (State.thenEnded .floor x.tellNotices h.ends) ∧
      (x.channel ch).state = (if bad then .ended else .idle) ∧
      (∃ e, (x.channel ch).ending = some e ∧ e.lastStep = a ∧ e.condition = condition ∧
        e.lastReport = some ⟨b.result, b.quantity⟩ ∧ e.cause = some cause) ∧
      (∀ c, c ≠ ch → x.channel c = s.channel c)
    (bad ∨ w.chain = false) →
    (∀ f, ch = frameChannel f → (s.channel ch).cause = some .doff → s.rc.calls = [] →
      ∃ x, ends .doff x ∧ DoffEnded s x f) ∧
    (∀ c, ch = trainChannel → (s.channel ch).cause = some .exchange → s.rc.current = some c →
      (bad ∨ (c.marked = true ∧ s.rc.calls = [])) → ∃ x, ends .exchange x ∧ ExchangeEnded s x c)) ∧
  (∀ (s : State) (h : FloorHead) (body : List Byte) (r : StationRecord),
    s.ready .floor (floorTelegram h kindStepReport body) → s.stationAt h.src = some r → r.link = .active →
    let ch := stationChannel r
    let c := s.channel ch
    let matched := fun (a : Nat) (b : StepBody) =>
      c.state = .running ∧ c.phase = some .sent ∧ c.address = some a ∧
        target? (s.stepAt a).target = some (r.role, r.side) ∧ (s.stepAt a).action = b.echo
    (∀ a b, stepReport? body = some b → matched a b → b.result ≠ .refused →
      ((s.stepAt a).quantity = 0 ∨ b.quantity = (s.stepAt a).quantity ∨ (s.stepAt a).slack = true) →
      (s.stepAt a).chain = true →
      let next := if b.result = .doneAdvance then a + 2 else a + 1
      let x := (s.renewed h r).setChannel ch
        { c with timer := .stopped, residual := residualOf c, lastReport := some ⟨b.result, b.quantity⟩ }
      exec (.stepReport h body) s =
        .next (State.thenEnded .floor (x.chains ch a next).announceIdle.tellNotices h.ends) ∧
      (511 < next → c.cause = some .management → s.unwatched →
        ∃ t : State, exec (.stepReport h body) s = .next t ∧ (t.channel ch).state = .ended ∧
          ∃ e, (t.channel ch).ending = some e ∧ e.condition = .sequenceCheck ∧ e.lastStep = a ∧
            e.lastReport = some ⟨b.result, b.quantity⟩)) ∧
    ((∀ a b, stepReport? body = some b → ¬ matched a b) →
      exec (.stepReport h body) s = .next (State.thenEnded .floor
        ((s.renewed h r).countError h.src).announceIdle.tellNotices h.ends) ∧
      (s.unwatched →
        (s.mu.row.errorLimit = 0 ∨ (satAdd r.errorCount 1).toNat < s.mu.row.errorLimit.toNat) →
        ∃ x : State, exec (.stepReport h body) s = .next (State.thenEnded .floor x.tellNotices h.ends) ∧
          x = ((s.received .floor h.ends).setSt x.st).setMu
            { s.mu with latched := s.mu.latched ||| 1#8 } ∧
          x.stationAt h.src = some { r with
            timer := .running (10 * silenceLimit s.mu.row r.role)
            errorCount := satAdd r.errorCount 1
            flags := { r.flags with errors := true } } ∧
          (∀ b, b ≠ h.src → x.stationAt b = s.stationAt b) ∧ ∀ d, x.channel d = s.channel d)))

/-- The step timer expires: a step in SENT or WATCHING ends its sequence TIMEOUT, with residual time 0 (for
a WAIT's expiry DEDUCED, log 25); a WAIT without CHAIN completes and ends it NORMAL (R107, R117, R119).
Said for cause MANAGEMENT with no request and no call that the ending could serve; then for a doff,
whose frame leaves DOFFING and whose permit is free (R135), and for an exchange, whose bay is settled
(R150): a NORMAL ending said for a marked bay and no call listed. A WAIT with CHAIN begins the next step, or
ends SEQUENCE CHECK at 511 (R107, R116). Then the AWAIT: a step in WATCHING completes at an announcement that
finds its condition holding, ends NORMAL without CHAIN and begins the next step with it (R109, R116); the
Frame Monitor announces to the AWAIT of its frame, and with a changed frame state to the Piecing Dispatcher
and the Doff Scheduler, in an order left free (R34, log 3); CARRIAGES IDLE is announced to every frame's AWAIT
(log 13). That an expiry named while the timer stands gives nothing is the model's choice, log 29. -/
def Obligations.StepTimerExpiry : Prop :=
  (∀ (s : State) (ch : ChannelNo) (a n : Nat) (p : StepPhase), (s.channel ch).timer = .running n →
    (s.channel ch).address = some a → (s.channel ch).phase = some p → (s.channel ch).cause = some .management →
    (∀ g, frameChannel g ≠ ch → (s.channel (frameChannel g)).phase ≠ some .watching) →
    s.ds.queue = [] → s.rc.calls = [] →
    (p = .sent ∨ p = .watching ∨ (p = .timing ∧ (s.stepAt a).chain = false)) →
    ∃ x : State, exec (.stepTimerExpiry ch) s = .next x.tellNotices ∧
      (x.channel ch).state = (if p = .timing then .idle else .ended) ∧
      (x.channel ch).timer = .stopped ∧ (x.channel ch).phase = none ∧ (x.channel ch).address = none ∧
      (∃ e, (x.channel ch).ending = some e ∧ e.lastStep = a ∧ e.nextStep = a + 1 ∧
        e.condition = (if p = .timing then .normal else .timeout) ∧ e.residual = some 0 ∧
        e.lastReport = (s.channel ch).lastReport ∧ e.cause = some .management) ∧
      x.mu.latched = (if p = .timing then s.mu.latched else s.mu.latched ||| 4#8) ∧
      (∀ c, c ≠ ch → x.channel c = s.channel c) ∧ x.fm = s.fm ∧ x.spt = s.spt ∧ x.rc = s.rc ∧ x.ds = s.ds) ∧
  (∀ (s : State) (ch : ChannelNo) (a n : Nat) (p : StepPhase), (s.channel ch).timer = .running n →
    (s.channel ch).address = some a → (s.channel ch).phase = some p →
    (∀ g, frameChannel g ≠ ch → (s.channel (frameChannel g)).phase ≠ some .watching) → s.ds.queue = [] →
    (p = .sent ∨ p = .watching ∨ (p = .timing ∧ (s.stepAt a).chain = false)) →
    let ends := fun (cause : StartCause) (x : State) =>
      exec (.stepTimerExpiry ch) s = .next x.tellNotices ∧
      (x.channel ch).state = (if p = .timing then .idle else .ended) ∧
      (∃ e, (x.channel ch).ending = some e ∧ e.lastStep = a ∧ e.residual = some 0 ∧
        e.condition = (if p = .timing then .normal else .timeout) ∧ e.cause = some cause) ∧
      (∀ c, c ≠ ch → x.channel c = s.channel c)
    (∀ f, ch = frameChannel f → (s.channel ch).cause = some .doff → s.rc.calls = [] →
      ∃ x, ends .doff x ∧ DoffEnded s x f) ∧
    (∀ c, ch = trainChannel → (s.channel ch).cause = some .exchange → s.rc.current = some c →
      (p ≠ .timing ∨ (c.marked = true ∧ s.rc.calls = [])) → ∃ x, ends .exchange x ∧ ExchangeEnded s x c)) ∧
  (∀ (s : State) (ch : ChannelNo), (s.channel ch).timer = .stopped → s.unwatched →
    exec (.stepTimerExpiry ch) s = .next s.tellNotices) ∧
  (∀ (s : State) (ch : ChannelNo) (a n : Nat), let c := s.channel ch
    c.timer = .running n → c.address = some a → c.phase = some .timing → (s.stepAt a).chain = true →
    exec (.stepTimerExpiry ch) s = .next (((s.setChannel ch
      { c with timer := .stopped, residual := some 0 }).chains ch a (a + 1)).announceIdle.tellNotices)) ∧
  (∀ (s : State) (f : FrameNo), let ch := frameChannel f
    let c := s.channel ch
    (c.phase ≠ some .watching → s.watchFrame f = s) ∧
    ∀ a, c.phase = some .watching → c.address = some a →
      let w := s.stepAt a
      let driveActive := isActive (s.stationOf .drive (some f) none) = true
      let holds := (w.argument = 1 ∧ driveActive ∧ (s.fm.get f).running = false) ∨
        (w.argument = 2 ∧ driveActive ∧ (s.fm.get f).running = true) ∨
        (w.argument = 3 ∧ ∀ sd, s.inService f sd = true → (s.carriage f sd).inHand = none)
      let x := s.setChannel ch { c with timer := .stopped, residual := residualOf c }
      (¬ holds → s.watchFrame f = s) ∧
      (holds → w.chain = false → s.watchFrame f = (x.endSequence ch a .normal).handEnding ch) ∧
      (holds → w.chain = true → s.watchFrame f = x.chains ch a (a + 1))) ∧
  (∀ (s : State) (f : FrameNo) (old : FrameState),
    (s.frameState f = old → s.announceFrame f old = s.watchFrame f) ∧
    (s.frameState f ≠ old → ∃ ks : List (State → State),
      ks.Perm [fun t => t.piecingOnFrame f, fun t => t.watchFrame f, fun t => t.doffOnFrame f] ∧
      s.announceFrame f old = ks.foldl (fun t k => k t) (s.setChoices (s.choices + 1)))) ∧
  (∀ s : State, s.announceIdle = (((s.watchFrame 0).watchFrame 1).watchFrame 2).watchFrame 3)
end

