-- ==== Sys2Proof/Decode.lean ====
section
/-! DEFINITION. The command that a word of the table's bits spells: no row gives bits, so none. -/

namespace Sys2Proof

def decodeTableWord (_nbits _w : Nat) : Option Instr := none

end Sys2Proof
end

