-- ==== Sys2Proof/Laws/State.lean ====
section
/-! SUPPORT. What each block update leaves: one lemma for each field and each update, so that no
proof unfolds a record update. -/

namespace Sys2Proof.Machine

section li
variable (s : State) (x : LineInterface)
@[simp] theorem State.setLi_li : (s.setLi x).li = x := rfl
@[simp] theorem State.setLi_st : (s.setLi x).st = s.st := rfl
@[simp] theorem State.setLi_fm : (s.setLi x).fm = s.fm := rfl
@[simp] theorem State.setLi_di : (s.setLi x).di = s.di := rfl
@[simp] theorem State.setLi_spt : (s.setLi x).spt = s.spt := rfl
@[simp] theorem State.setLi_pd : (s.setLi x).pd = s.pd := rfl
@[simp] theorem State.setLi_se : (s.setLi x).se = s.se := rfl
@[simp] theorem State.setLi_ds : (s.setLi x).ds = s.ds := rfl
@[simp] theorem State.setLi_rc : (s.setLi x).rc = s.rc := rfl
@[simp] theorem State.setLi_sc : (s.setLi x).sc = s.sc := rfl
@[simp] theorem State.setLi_mu : (s.setLi x).mu = s.mu := rfl
@[simp] theorem State.setLi_orders : (s.setLi x).orders = s.orders := rfl
@[simp] theorem State.setLi_choices : (s.setLi x).choices = s.choices := rfl
@[simp] theorem State.setLi_pending : (s.setLi x).pending = s.pending := rfl
end li

section st
variable (s : State) (x : List StationRecord)
@[simp] theorem State.setSt_li : (s.setSt x).li = s.li := rfl
@[simp] theorem State.setSt_st : (s.setSt x).st = x := rfl
@[simp] theorem State.setSt_fm : (s.setSt x).fm = s.fm := rfl
@[simp] theorem State.setSt_di : (s.setSt x).di = s.di := rfl
@[simp] theorem State.setSt_spt : (s.setSt x).spt = s.spt := rfl
@[simp] theorem State.setSt_pd : (s.setSt x).pd = s.pd := rfl
@[simp] theorem State.setSt_se : (s.setSt x).se = s.se := rfl
@[simp] theorem State.setSt_ds : (s.setSt x).ds = s.ds := rfl
@[simp] theorem State.setSt_rc : (s.setSt x).rc = s.rc := rfl
@[simp] theorem State.setSt_sc : (s.setSt x).sc = s.sc := rfl
@[simp] theorem State.setSt_mu : (s.setSt x).mu = s.mu := rfl
@[simp] theorem State.setSt_orders : (s.setSt x).orders = s.orders := rfl
@[simp] theorem State.setSt_choices : (s.setSt x).choices = s.choices := rfl
@[simp] theorem State.setSt_pending : (s.setSt x).pending = s.pending := rfl
end st

section fm
variable (s : State) (x : Vector FrameItem 4)
@[simp] theorem State.setFm_li : (s.setFm x).li = s.li := rfl
@[simp] theorem State.setFm_st : (s.setFm x).st = s.st := rfl
@[simp] theorem State.setFm_fm : (s.setFm x).fm = x := rfl
@[simp] theorem State.setFm_di : (s.setFm x).di = s.di := rfl
@[simp] theorem State.setFm_spt : (s.setFm x).spt = s.spt := rfl
@[simp] theorem State.setFm_pd : (s.setFm x).pd = s.pd := rfl
@[simp] theorem State.setFm_se : (s.setFm x).se = s.se := rfl
@[simp] theorem State.setFm_ds : (s.setFm x).ds = s.ds := rfl
@[simp] theorem State.setFm_rc : (s.setFm x).rc = s.rc := rfl
@[simp] theorem State.setFm_sc : (s.setFm x).sc = s.sc := rfl
@[simp] theorem State.setFm_mu : (s.setFm x).mu = s.mu := rfl
@[simp] theorem State.setFm_orders : (s.setFm x).orders = s.orders := rfl
@[simp] theorem State.setFm_choices : (s.setFm x).choices = s.choices := rfl
@[simp] theorem State.setFm_pending : (s.setFm x).pending = s.pending := rfl
end fm

section di
variable (s : State) (x : Vector DeliveryItem 4)
@[simp] theorem State.setDi_li : (s.setDi x).li = s.li := rfl
@[simp] theorem State.setDi_st : (s.setDi x).st = s.st := rfl
@[simp] theorem State.setDi_fm : (s.setDi x).fm = s.fm := rfl
@[simp] theorem State.setDi_di : (s.setDi x).di = x := rfl
@[simp] theorem State.setDi_spt : (s.setDi x).spt = s.spt := rfl
@[simp] theorem State.setDi_pd : (s.setDi x).pd = s.pd := rfl
@[simp] theorem State.setDi_se : (s.setDi x).se = s.se := rfl
@[simp] theorem State.setDi_ds : (s.setDi x).ds = s.ds := rfl
@[simp] theorem State.setDi_rc : (s.setDi x).rc = s.rc := rfl
@[simp] theorem State.setDi_sc : (s.setDi x).sc = s.sc := rfl
@[simp] theorem State.setDi_mu : (s.setDi x).mu = s.mu := rfl
@[simp] theorem State.setDi_orders : (s.setDi x).orders = s.orders := rfl
@[simp] theorem State.setDi_choices : (s.setDi x).choices = s.choices := rfl
@[simp] theorem State.setDi_pending : (s.setDi x).pending = s.pending := rfl
end di

section spt
variable (s : State) (x : Vector FrameSpindles 4)
@[simp] theorem State.setSpt_li : (s.setSpt x).li = s.li := rfl
@[simp] theorem State.setSpt_st : (s.setSpt x).st = s.st := rfl
@[simp] theorem State.setSpt_fm : (s.setSpt x).fm = s.fm := rfl
@[simp] theorem State.setSpt_di : (s.setSpt x).di = s.di := rfl
@[simp] theorem State.setSpt_spt : (s.setSpt x).spt = x := rfl
@[simp] theorem State.setSpt_pd : (s.setSpt x).pd = s.pd := rfl
@[simp] theorem State.setSpt_se : (s.setSpt x).se = s.se := rfl
@[simp] theorem State.setSpt_ds : (s.setSpt x).ds = s.ds := rfl
@[simp] theorem State.setSpt_rc : (s.setSpt x).rc = s.rc := rfl
@[simp] theorem State.setSpt_sc : (s.setSpt x).sc = s.sc := rfl
@[simp] theorem State.setSpt_mu : (s.setSpt x).mu = s.mu := rfl
@[simp] theorem State.setSpt_orders : (s.setSpt x).orders = s.orders := rfl
@[simp] theorem State.setSpt_choices : (s.setSpt x).choices = s.choices := rfl
@[simp] theorem State.setSpt_pending : (s.setSpt x).pending = s.pending := rfl
end spt

section pd
variable (s : State) (x : Vector CarriageRecord 8)
@[simp] theorem State.setPd_li : (s.setPd x).li = s.li := rfl
@[simp] theorem State.setPd_st : (s.setPd x).st = s.st := rfl
@[simp] theorem State.setPd_fm : (s.setPd x).fm = s.fm := rfl
@[simp] theorem State.setPd_di : (s.setPd x).di = s.di := rfl
@[simp] theorem State.setPd_spt : (s.setPd x).spt = s.spt := rfl
@[simp] theorem State.setPd_pd : (s.setPd x).pd = x := rfl
@[simp] theorem State.setPd_se : (s.setPd x).se = s.se := rfl
@[simp] theorem State.setPd_ds : (s.setPd x).ds = s.ds := rfl
@[simp] theorem State.setPd_rc : (s.setPd x).rc = s.rc := rfl
@[simp] theorem State.setPd_sc : (s.setPd x).sc = s.sc := rfl
@[simp] theorem State.setPd_mu : (s.setPd x).mu = s.mu := rfl
@[simp] theorem State.setPd_orders : (s.setPd x).orders = s.orders := rfl
@[simp] theorem State.setPd_choices : (s.setPd x).choices = s.choices := rfl
@[simp] theorem State.setPd_pending : (s.setPd x).pending = s.pending := rfl
end pd

section se
variable (s : State) (x : SequenceEngine)
@[simp] theorem State.setSe_li : (s.setSe x).li = s.li := rfl
@[simp] theorem State.setSe_st : (s.setSe x).st = s.st := rfl
@[simp] theorem State.setSe_fm : (s.setSe x).fm = s.fm := rfl
@[simp] theorem State.setSe_di : (s.setSe x).di = s.di := rfl
@[simp] theorem State.setSe_spt : (s.setSe x).spt = s.spt := rfl
@[simp] theorem State.setSe_pd : (s.setSe x).pd = s.pd := rfl
@[simp] theorem State.setSe_se : (s.setSe x).se = x := rfl
@[simp] theorem State.setSe_ds : (s.setSe x).ds = s.ds := rfl
@[simp] theorem State.setSe_rc : (s.setSe x).rc = s.rc := rfl
@[simp] theorem State.setSe_sc : (s.setSe x).sc = s.sc := rfl
@[simp] theorem State.setSe_mu : (s.setSe x).mu = s.mu := rfl
@[simp] theorem State.setSe_orders : (s.setSe x).orders = s.orders := rfl
@[simp] theorem State.setSe_choices : (s.setSe x).choices = s.choices := rfl
@[simp] theorem State.setSe_pending : (s.setSe x).pending = s.pending := rfl
end se

section ds
variable (s : State) (x : DoffScheduler)
@[simp] theorem State.setDs_li : (s.setDs x).li = s.li := rfl
@[simp] theorem State.setDs_st : (s.setDs x).st = s.st := rfl
@[simp] theorem State.setDs_fm : (s.setDs x).fm = s.fm := rfl
@[simp] theorem State.setDs_di : (s.setDs x).di = s.di := rfl
@[simp] theorem State.setDs_spt : (s.setDs x).spt = s.spt := rfl
@[simp] theorem State.setDs_pd : (s.setDs x).pd = s.pd := rfl
@[simp] theorem State.setDs_se : (s.setDs x).se = s.se := rfl
@[simp] theorem State.setDs_ds : (s.setDs x).ds = x := rfl
@[simp] theorem State.setDs_rc : (s.setDs x).rc = s.rc := rfl
@[simp] theorem State.setDs_sc : (s.setDs x).sc = s.sc := rfl
@[simp] theorem State.setDs_mu : (s.setDs x).mu = s.mu := rfl
@[simp] theorem State.setDs_orders : (s.setDs x).orders = s.orders := rfl
@[simp] theorem State.setDs_choices : (s.setDs x).choices = s.choices := rfl
@[simp] theorem State.setDs_pending : (s.setDs x).pending = s.pending := rfl
end ds

section rc
variable (s : State) (x : RovingController)
@[simp] theorem State.setRc_li : (s.setRc x).li = s.li := rfl
@[simp] theorem State.setRc_st : (s.setRc x).st = s.st := rfl
@[simp] theorem State.setRc_fm : (s.setRc x).fm = s.fm := rfl
@[simp] theorem State.setRc_di : (s.setRc x).di = s.di := rfl
@[simp] theorem State.setRc_spt : (s.setRc x).spt = s.spt := rfl
@[simp] theorem State.setRc_pd : (s.setRc x).pd = s.pd := rfl
@[simp] theorem State.setRc_se : (s.setRc x).se = s.se := rfl
@[simp] theorem State.setRc_ds : (s.setRc x).ds = s.ds := rfl
@[simp] theorem State.setRc_rc : (s.setRc x).rc = x := rfl
@[simp] theorem State.setRc_sc : (s.setRc x).sc = s.sc := rfl
@[simp] theorem State.setRc_mu : (s.setRc x).mu = s.mu := rfl
@[simp] theorem State.setRc_orders : (s.setRc x).orders = s.orders := rfl
@[simp] theorem State.setRc_choices : (s.setRc x).choices = s.choices := rfl
@[simp] theorem State.setRc_pending : (s.setRc x).pending = s.pending := rfl
end rc

section sc
variable (s : State) (x : ShiftCounters)
@[simp] theorem State.setSc_li : (s.setSc x).li = s.li := rfl
@[simp] theorem State.setSc_st : (s.setSc x).st = s.st := rfl
@[simp] theorem State.setSc_fm : (s.setSc x).fm = s.fm := rfl
@[simp] theorem State.setSc_di : (s.setSc x).di = s.di := rfl
@[simp] theorem State.setSc_spt : (s.setSc x).spt = s.spt := rfl
@[simp] theorem State.setSc_pd : (s.setSc x).pd = s.pd := rfl
@[simp] theorem State.setSc_se : (s.setSc x).se = s.se := rfl
@[simp] theorem State.setSc_ds : (s.setSc x).ds = s.ds := rfl
@[simp] theorem State.setSc_rc : (s.setSc x).rc = s.rc := rfl
@[simp] theorem State.setSc_sc : (s.setSc x).sc = x := rfl
@[simp] theorem State.setSc_mu : (s.setSc x).mu = s.mu := rfl
@[simp] theorem State.setSc_orders : (s.setSc x).orders = s.orders := rfl
@[simp] theorem State.setSc_choices : (s.setSc x).choices = s.choices := rfl
@[simp] theorem State.setSc_pending : (s.setSc x).pending = s.pending := rfl
end sc

section mu
variable (s : State) (x : ManagementUnit)
@[simp] theorem State.setMu_li : (s.setMu x).li = s.li := rfl
@[simp] theorem State.setMu_st : (s.setMu x).st = s.st := rfl
@[simp] theorem State.setMu_fm : (s.setMu x).fm = s.fm := rfl
@[simp] theorem State.setMu_di : (s.setMu x).di = s.di := rfl
@[simp] theorem State.setMu_spt : (s.setMu x).spt = s.spt := rfl
@[simp] theorem State.setMu_pd : (s.setMu x).pd = s.pd := rfl
@[simp] theorem State.setMu_se : (s.setMu x).se = s.se := rfl
@[simp] theorem State.setMu_ds : (s.setMu x).ds = s.ds := rfl
@[simp] theorem State.setMu_rc : (s.setMu x).rc = s.rc := rfl
@[simp] theorem State.setMu_sc : (s.setMu x).sc = s.sc := rfl
@[simp] theorem State.setMu_mu : (s.setMu x).mu = x := rfl
@[simp] theorem State.setMu_orders : (s.setMu x).orders = s.orders := rfl
@[simp] theorem State.setMu_choices : (s.setMu x).choices = s.choices := rfl
@[simp] theorem State.setMu_pending : (s.setMu x).pending = s.pending := rfl
end mu

section orders
variable (s : State) (x : Nat)
@[simp] theorem State.setOrders_li : (s.setOrders x).li = s.li := rfl
@[simp] theorem State.setOrders_st : (s.setOrders x).st = s.st := rfl
@[simp] theorem State.setOrders_fm : (s.setOrders x).fm = s.fm := rfl
@[simp] theorem State.setOrders_di : (s.setOrders x).di = s.di := rfl
@[simp] theorem State.setOrders_spt : (s.setOrders x).spt = s.spt := rfl
@[simp] theorem State.setOrders_pd : (s.setOrders x).pd = s.pd := rfl
@[simp] theorem State.setOrders_se : (s.setOrders x).se = s.se := rfl
@[simp] theorem State.setOrders_ds : (s.setOrders x).ds = s.ds := rfl
@[simp] theorem State.setOrders_rc : (s.setOrders x).rc = s.rc := rfl
@[simp] theorem State.setOrders_sc : (s.setOrders x).sc = s.sc := rfl
@[simp] theorem State.setOrders_mu : (s.setOrders x).mu = s.mu := rfl
@[simp] theorem State.setOrders_orders : (s.setOrders x).orders = x := rfl
@[simp] theorem State.setOrders_choices : (s.setOrders x).choices = s.choices := rfl
@[simp] theorem State.setOrders_pending : (s.setOrders x).pending = s.pending := rfl
end orders

section choices
variable (s : State) (x : Nat)
@[simp] theorem State.setChoices_li : (s.setChoices x).li = s.li := rfl
@[simp] theorem State.setChoices_st : (s.setChoices x).st = s.st := rfl
@[simp] theorem State.setChoices_fm : (s.setChoices x).fm = s.fm := rfl
@[simp] theorem State.setChoices_di : (s.setChoices x).di = s.di := rfl
@[simp] theorem State.setChoices_spt : (s.setChoices x).spt = s.spt := rfl
@[simp] theorem State.setChoices_pd : (s.setChoices x).pd = s.pd := rfl
@[simp] theorem State.setChoices_se : (s.setChoices x).se = s.se := rfl
@[simp] theorem State.setChoices_ds : (s.setChoices x).ds = s.ds := rfl
@[simp] theorem State.setChoices_rc : (s.setChoices x).rc = s.rc := rfl
@[simp] theorem State.setChoices_sc : (s.setChoices x).sc = s.sc := rfl
@[simp] theorem State.setChoices_mu : (s.setChoices x).mu = s.mu := rfl
@[simp] theorem State.setChoices_orders : (s.setChoices x).orders = s.orders := rfl
@[simp] theorem State.setChoices_choices : (s.setChoices x).choices = x := rfl
@[simp] theorem State.setChoices_pending : (s.setChoices x).pending = s.pending := rfl
end choices

section pending
variable (s : State) (x : List Instr)
@[simp] theorem State.setPending_li : (s.setPending x).li = s.li := rfl
@[simp] theorem State.setPending_st : (s.setPending x).st = s.st := rfl
@[simp] theorem State.setPending_fm : (s.setPending x).fm = s.fm := rfl
@[simp] theorem State.setPending_di : (s.setPending x).di = s.di := rfl
@[simp] theorem State.setPending_spt : (s.setPending x).spt = s.spt := rfl
@[simp] theorem State.setPending_pd : (s.setPending x).pd = s.pd := rfl
@[simp] theorem State.setPending_se : (s.setPending x).se = s.se := rfl
@[simp] theorem State.setPending_ds : (s.setPending x).ds = s.ds := rfl
@[simp] theorem State.setPending_rc : (s.setPending x).rc = s.rc := rfl
@[simp] theorem State.setPending_sc : (s.setPending x).sc = s.sc := rfl
@[simp] theorem State.setPending_mu : (s.setPending x).mu = s.mu := rfl
@[simp] theorem State.setPending_orders : (s.setPending x).orders = s.orders := rfl
@[simp] theorem State.setPending_choices : (s.setPending x).choices = s.choices := rfl
@[simp] theorem State.setPending_pending : (s.setPending x).pending = x := rfl
end pending

end Sys2Proof.Machine
end

