-- ==== Sys2Proof/Laws/Receiver.lean ====
section
/-! SUPPORT. The receiver, said once: a telegram's groups leave it where the group that ends the
telegram says, and bring about the telegram's arrival and nothing else (R1 to R4). -/

namespace Sys2Proof.Machine

theorem classify_data (n : BitVec 4) : classify (dataGroup n) = .data n := by
  revert n
  decide

theorem classify_mark (k : MarkGroup) : classify (markGroup k) = .mark k := by
  cases k <;> decide

theorem byte_nibbles (b : Byte) : b.extractLsb' 4 4 ++ b.extractLsb' 0 4 = b := by
  apply BitVec.eq_of_toNat_eq
  simp only [BitVec.toNat_append, BitVec.extractLsb'_toNat, Nat.shiftRight_zero]
  have h : b.toNat < 256 := b.isLt
  rw [Nat.shiftLeft_eq, Nat.shiftRight_eq_div_pow, Nat.mod_eq_of_lt (by omega : b.toNat / 2 ^ 4 < 2 ^ 4),
    Nat.mul_comm, ← Nat.two_pow_add_eq_or_of_lt (Nat.mod_lt _ (by decide))]
  omega

theorem half_bytes (x : Half) : half (x.extractLsb' 8 8) (x.extractLsb' 0 8) = x := by
  apply BitVec.eq_of_toNat_eq
  simp only [half, BitVec.toNat_append, BitVec.extractLsb'_toNat, Nat.shiftRight_zero]
  have h : x.toNat < 65536 := x.isLt
  rw [Nat.shiftLeft_eq, Nat.shiftRight_eq_div_pow, Nat.mod_eq_of_lt (by omega : x.toNat / 2 ^ 8 < 2 ^ 8),
    Nat.mul_comm, ← Nat.two_pow_add_eq_or_of_lt (Nat.mod_lt _ (by decide))]
  omega

theorem Receiver.takeAll_append (xs ys : List Group) : ∀ r : Receiver,
    r.takeAll (xs ++ ys) =
      (((r.takeAll xs).1.takeAll ys).1, (r.takeAll xs).2 ++ ((r.takeAll xs).1.takeAll ys).2) := by
  induction xs with
  | nil => intro r; rfl
  | cons x xs ih =>
    intro r
    simp only [List.cons_append, Receiver.takeAll, ih, List.append_assoc]

/-- Two runs of groups, the first of which brings nothing about. -/
theorem Receiver.takeAll_then {r a b : Receiver} {xs ys : List Group} {es : List RxEvent}
    (h : r.takeAll xs = (a, [])) (k : a.takeAll ys = (b, es)) : r.takeAll (xs ++ ys) = (b, es) := by
  rw [Receiver.takeAll_append, h, k, List.nil_append]

/-- A byte that a receiver in reception, with room for it, takes as two groups. -/
theorem Receiver.take_byte (r : Receiver) (b : Byte) (hi : r.state ≠ .idle) (hr : r.run = [])
    (hh : r.high = none) (hc : r.complete = false) : r.takeAll (byteGroups b) = r.onByte b := by
  obtain ⟨st, m, bs, hg, rn⟩ := r
  simp only at hi hr hh
  subst hr hh
  have e1 : Receiver.take ⟨st, m, bs, none, []⟩ (dataGroup (b.extractLsb' 4 4)) =
      (⟨st, m, bs, some (b.extractLsb' 4 4), []⟩, []) := by
    simp only [Receiver.take, classify_data, List.isEmpty_nil, if_true, Receiver.onPlain, Receiver.onData, hc]
    cases st <;> first | exact absurd rfl hi | rfl
  have e2 : Receiver.take ⟨st, m, bs, some (b.extractLsb' 4 4), []⟩ (dataGroup (b.extractLsb' 0 4)) =
      Receiver.onByte ⟨st, m, bs, none, []⟩ b := by
    simp only [Receiver.take, classify_data, List.isEmpty_nil, if_true, Receiver.onPlain, Receiver.onData,
      Receiver.complete, Option.isNone_some, Bool.and_false, Bool.false_and, byte_nibbles]
    cases st <;> first | exact absurd rfl hi | rfl
  simp only [byteGroups, Receiver.takeAll, e1, e2, List.nil_append, List.append_nil]

theorem Receiver.open_header (m : StartMark) (bs : List Byte) :
    Receiver.complete ⟨.header, m, bs, none, []⟩ = false := rfl

theorem Receiver.open_body (m : StartMark) (bs : List Byte) :
    Receiver.complete ⟨.body, m, bs, none, []⟩ = false := rfl

/-- The header of a telegram (R2). -/
theorem Receiver.take_header (m : StartMark) (d s k : Byte) (n : Byte) (hn : n.toNat ≤ 60) :
    (Receiver.begun m).takeAll ([d, s, k, n].flatMap byteGroups) =
      (⟨if n = 0 then .check else .body, m, [d, s, k, n], none, []⟩, []) := by
  have step : ∀ (bs : List Byte) (b : Byte),
      Receiver.takeAll ⟨.header, m, bs, none, []⟩ (byteGroups b) = Receiver.onByte ⟨.header, m, bs, none, []⟩ b :=
    fun bs b => Receiver.take_byte _ b (by simp) rfl rfl rfl
  have hle : ¬ 60 < n.toNat := by omega
  simp only [Receiver.begun, List.flatMap_cons, List.flatMap_nil, List.append_nil, Receiver.takeAll_append, step,
    Receiver.onByte, List.nil_append, List.cons_append, List.length_cons, List.length_nil, Nat.zero_add,
    Nat.reduceAdd, Nat.reduceLT, if_true, if_false, hle, List.append_nil]

/-- The body of a telegram (R2): `more` bytes are still to come and `xs` are they. -/
theorem Receiver.take_body (m : StartMark) : ∀ (xs pre : List Byte), xs ≠ [] → 4 ≤ pre.length →
    pre.length + xs.length = 4 + (byteAt pre 3).toNat →
    Receiver.takeAll ⟨.body, m, pre, none, []⟩ (xs.flatMap byteGroups) = (⟨.check, m, pre ++ xs, none, []⟩, []) := by
  intro xs
  induction xs with
  | nil => intro pre h; exact absurd rfl h
  | cons x xs ih =>
    intro pre _ h4 hl
    have e : Receiver.takeAll ⟨.body, m, pre, none, []⟩ (byteGroups x) = Receiver.onByte ⟨.body, m, pre, none, []⟩ x :=
      Receiver.take_byte _ x (by simp) rfl rfl rfl
    simp only [List.flatMap_cons, Receiver.takeAll_append, e, Receiver.onByte, Receiver.length, List.length_append,
      List.length_cons, List.length_nil, List.nil_append]
    simp only [List.length_cons] at hl
    cases xs with
    | nil =>
      rw [if_pos (by simp only [List.length_nil] at hl; omega)]
      rfl
    | cons y ys =>
      rw [if_neg (by simp only [List.length_cons] at hl; omega)]
      have hb : byteAt (pre ++ [x]) 3 = byteAt pre 3 := by
        simp only [byteAt, List.getD_eq_getElem?_getD, List.getElem?_append_left (show 3 < pre.length by omega)]
      have k := ih (pre ++ [x]) (by simp) (by simp only [List.length_append]; omega)
        (by rw [hb]; simp only [List.length_append, List.length_cons, List.length_nil] at hl ⊢; omega)
      rw [k]
      simp

/-- The check bytes of a telegram (R2): the receiver has all, and waits for the end. -/
theorem Receiver.take_check (m : StartMark) (pre : List Byte) (c d : Byte)
    (hl : pre.length = 4 + (byteAt pre 3).toNat) :
    Receiver.takeAll ⟨.check, m, pre, none, []⟩ ([c, d].flatMap byteGroups) =
      (⟨.check, m, pre ++ [c, d], none, []⟩, []) := by
  have e1 : Receiver.takeAll ⟨.check, m, pre, none, []⟩ (byteGroups c) = Receiver.onByte ⟨.check, m, pre, none, []⟩ c :=
    Receiver.take_byte _ c (by simp) rfl rfl (by
      simp only [Receiver.complete, Receiver.length, Option.isNone_none, Bool.and_true, beq_self_eq_true, Bool.true_and,
        beq_eq_false_iff_ne]
      omega)
  have hb : byteAt (pre ++ [c]) 3 = byteAt pre 3 := by
    simp only [byteAt, List.getD_eq_getElem?_getD, List.getElem?_append_left (show 3 < pre.length by omega)]
  have e2 : Receiver.takeAll ⟨.check, m, pre ++ [c], none, []⟩ (byteGroups d) =
      Receiver.onByte ⟨.check, m, pre ++ [c], none, []⟩ d :=
    Receiver.take_byte _ d (by simp) rfl rfl (by
      simp only [Receiver.complete, Receiver.length, hb, Option.isNone_none, Bool.and_true, beq_self_eq_true,
        Bool.true_and, beq_eq_false_iff_ne, List.length_append, List.length_cons, List.length_nil]
      omega)
  simp only [List.flatMap_cons, List.flatMap_nil, List.append_nil, Receiver.takeAll_append, e1, Receiver.onByte, e2,
    List.append_assoc, List.cons_append, List.nil_append]

/-- A receiver that has a whole telegram and waits for its end. -/
def Receiver.holding (t : Telegram) : Receiver := ⟨.check, t.mark, Telegram.lineBytes t, none, []⟩

theorem length_byte {n : Nat} (h : n ≤ 60) : (BitVec.ofNat 8 n).toNat = n := by
  simp only [BitVec.toNat_ofNat]
  omega

/-- A telegram's header, body and check, after its mark (R2). -/
theorem Receiver.take_telegram (t : Telegram) (h : t.body.length ≤ 60) :
    (Receiver.begun t.mark).takeAll (Telegram.dataGroups t) = (.holding t, []) := by
  obtain ⟨m, d, s, k, body⟩ := t
  simp only at h ⊢
  have hn := length_byte h
  have hb : byteAt ([d, s, k, BitVec.ofNat 8 body.length] ++ body) 3 = BitVec.ofNat 8 body.length := rfl
  have hlen : ([d, s, k, BitVec.ofNat 8 body.length] ++ body).length =
      4 + (byteAt ([d, s, k, BitVec.ofNat 8 body.length] ++ body) 3).toNat := by
    rw [hb, hn]
    simp only [List.length_append, List.length_cons, List.length_nil]
  have ck := Receiver.take_check m _ ((checkOf ([d, s, k, BitVec.ofNat 8 body.length] ++ body)).extractLsb' 8 8)
    ((checkOf ([d, s, k, BitVec.ofNat 8 body.length] ++ body)).extractLsb' 0 8) hlen
  have bd : Receiver.takeAll ⟨if BitVec.ofNat 8 body.length = 0#8 then .check else .body, m,
      [d, s, k, BitVec.ofNat 8 body.length], none, []⟩ (body.flatMap byteGroups) =
        (⟨.check, m, [d, s, k, BitVec.ofNat 8 body.length] ++ body, none, []⟩, []) := by
    cases body with
    | nil => rfl
    | cons x xs =>
      rw [if_neg (by
        intro e
        have e' := congrArg BitVec.toNat e
        rw [hn] at e'
        simp at e')]
      exact Receiver.take_body m _ _ (by simp) (by simp) (by
        rw [show byteAt [d, s, k, BitVec.ofNat 8 (x :: xs).length] 3 = BitVec.ofNat 8 (x :: xs).length from rfl, hn]
        rfl)
  simp only [Telegram.dataGroups, Telegram.lineBytes, Telegram.checkedBytes, halfBytes, List.flatMap_append]
  exact Receiver.takeAll_then (Receiver.takeAll_then
    (Receiver.take_header m d s k _ (by rw [hn]; exact h)) bd) ck

/-- The mark that begins a telegram, from IDLE (R1, R2). -/
theorem Receiver.take_mark (m : StartMark) : Receiver.idle.takeAll (markGroups (.start m)) = (.begun m, []) := by
  revert m
  intro m
  cases m <;> rfl

/-- What the end of a telegram brings about (R2). -/
def endEvents (t : Telegram) : TelegramEnd → List RxEvent
  | .mark .lineReset => [.telegram t, .lineReset]
  | _ => [.telegram t]

/-- The end of a telegram whose check is right (R4). -/
theorem Receiver.holding_ended (t : Telegram) (h : t.body.length ≤ 60) :
    (Receiver.holding t).complete = true ∧ (Receiver.holding t).ended = .telegram t := by
  obtain ⟨m, d, s, k, body⟩ := t
  simp only at h
  have hn := length_byte h
  have hl : (Receiver.holding ⟨m, d, s, k, body⟩).length = body.length := by
    simp only [Receiver.holding, Receiver.length, Telegram.lineBytes, Telegram.checkedBytes, halfBytes, byteAt,
      List.cons_append, List.getD_cons_succ, List.getD_cons_zero, hn]
  constructor
  · simp only [Receiver.complete, hl]
    simp only [Receiver.holding, Telegram.lineBytes, Telegram.checkedBytes, halfBytes, List.length_append,
      List.length_cons, List.length_nil, Option.isNone_none, Bool.and_true, beq_self_eq_true]
  · simp only [Receiver.ended, hl]
    have ht : (Receiver.holding ⟨m, d, s, k, body⟩).bytes.take (4 + body.length) =
        Telegram.checkedBytes ⟨m, d, s, k, body⟩ := by
      simp only [Receiver.holding, Telegram.lineBytes]
      rw [List.take_append_of_le_length (by simp [Telegram.checkedBytes]; omega)]
      exact List.take_of_length_le (by simp [Telegram.checkedBytes]; omega)
    have hc : halfAt (Receiver.holding ⟨m, d, s, k, body⟩).bytes (4 + body.length) =
        checkOf (Telegram.checkedBytes ⟨m, d, s, k, body⟩) := by
      have hlen : (Telegram.checkedBytes ⟨m, d, s, k, body⟩).length = 4 + body.length := by
        simp [Telegram.checkedBytes]; omega
      simp only [Receiver.holding, Telegram.lineBytes, halfAt, byteAt, halfBytes, List.getD_eq_getElem?_getD]
      rw [List.getElem?_append_right (by omega), List.getElem?_append_right (by omega), hlen,
        show 4 + body.length - (4 + body.length) = 0 by omega,
        show 4 + body.length + 1 - (4 + body.length) = 1 by omega]
      exact half_bytes _
    rw [if_pos (by rw [ht, hc]), ht]
    simp only [Receiver.holding, Telegram.lineBytes, Telegram.checkedBytes, halfBytes, byteAt, List.cons_append,
      List.nil_append, List.getD_cons_succ, List.getD_cons_zero, List.drop_succ_cons, List.drop_zero]

/-- The four mark groups of a mark, at a receiver with no run open (R1). -/
theorem Receiver.take_run (r : Receiver) (m : Mark) (h : r.run = []) :
    r.takeAll (markGroups m) = r.onMark m := by
  obtain ⟨st, k, bs, hi, run⟩ := r
  simp only at h
  subst h
  have e : ∀ run k', Receiver.take ⟨st, k, bs, hi, run⟩ (markGroup k') =
      if (run ++ [k']).length < 4 then (⟨st, k, bs, hi, run ++ [k']⟩, [])
      else match runMark? (run ++ [k']) with
        | some m => Receiver.onMark ⟨st, k, bs, hi, []⟩ m
        | none => Receiver.onInvalid ⟨st, k, bs, hi, []⟩ := by
    intro run k'
    have c := classify_mark k'
    unfold Receiver.take
    split
    · next k e =>
      obtain rfl : k = k' := by injection e.symm.trans c
      rfl
    · next h => exact absurd c (h k')
  rcases m with m | _
  · cases m <;>
      simp only [markGroups, markRun, List.map_cons, List.map_nil, Receiver.takeAll, e, List.nil_append,
        List.cons_append, List.length_cons, List.length_nil, Nat.reduceAdd, Nat.reduceLT, if_true, if_false, runMark?,
        List.append_nil]
  · simp only [markGroups, markRun, List.map_cons, List.map_nil, Receiver.takeAll, e, List.nil_append,
      List.cons_append, List.length_cons, List.length_nil, Nat.reduceAdd, Nat.reduceLT, if_true, if_false, runMark?,
      List.append_nil]

/-- The group that ends a telegram whose check is right (R2, R4). -/
theorem Receiver.take_end (t : Telegram) (e : TelegramEnd) (h : t.body.length ≤ 60) :
    (Receiver.holding t).takeAll (endGroups e) = (endReceiver e, endEvents t e) := by
  obtain ⟨hc, he⟩ := Receiver.holding_ended t h
  cases e with
  | fill =>
    show ((Receiver.onFill (.holding t)).1, (Receiver.onFill (.holding t)).2 ++ []) = _
    simp only [Receiver.onFill, hc, he, if_true, List.append_nil]
    rfl
  | mark m =>
    have k : (Receiver.holding t).cutOff = [.telegram t] := by
      show [if (Receiver.holding t).complete then (Receiver.holding t).ended else .discarded] = _
      rw [hc, he, if_pos rfl]
    rw [show endGroups (.mark m) = markGroups m from rfl, Receiver.take_run _ m rfl]
    cases m with
    | start m => simp only [Receiver.onMark, k, endReceiver, endEvents]
    | lineReset => simp only [Receiver.onMark, k, endReceiver, endEvents, List.cons_append, List.nil_append]

/-- A telegram that arrives whole at a receiver that is in IDLE, or has just received its mark. -/
theorem Receiver.take_arrival (r : Receiver) (t : Telegram) (e : TelegramEnd)
    (hr : r = .idle ∨ r = .begun t.mark) (h : t.body.length ≤ 60) :
    r.takeAll (arrivalGroups r t e) = (endReceiver e, endEvents t e) := by
  have k := Receiver.takeAll_then (Receiver.take_telegram t h) (Receiver.take_end t e h)
  rcases hr with hr | hr
  · subst hr
    have hne : ¬ Receiver.idle = .begun t.mark := by
      intro e
      exact absurd (congrArg Receiver.state e) (by simp [Receiver.idle, Receiver.begun])
    simp only [arrivalGroups, if_neg hne, List.append_assoc]
    exact Receiver.takeAll_then (Receiver.take_mark t.mark) k
  · subst hr
    simp only [arrivalGroups, if_true, List.nil_append]
    exact k

end Sys2Proof.Machine
end

