-- ==== Sys2Proof/Laws/Arrival.lean ====
section
/-! SUPPORT. Groups at a port, said once: groups that bring nothing about move the receiver only; a
telegram that arrives whole is counted and routed, then the mark that ended it is taken; one of an ACTIVE
station renews its timer first. And what a completed step with CHAIN goes on to. -/

namespace Sys2Proof.Machine

theorem State.receiver_self (s : State) (p : Port) : s.setReceiver p (s.receiver p) = s := by
  cases p <;> rfl

theorem State.receiver_set (s : State) (p : Port) (r : Receiver) : (s.setReceiver p r).receiver p = r := by
  cases p <;> rfl

theorem State.setReceiver_twice (s : State) (p : Port) (q r : Receiver) :
    (s.setReceiver p q).setReceiver p r = s.setReceiver p r := by
  cases p <;> rfl

/-- One group that brings nothing about. -/
theorem State.takeGroup_silent {s : State} {p : Port} {g : Group} {r : Receiver}
    (h : (s.receiver p).take g = (r, [])) : s.takeGroup p g = s.setReceiver p r := by
  simp only [State.takeGroup, h, List.foldl_nil]

/-- Groups that bring nothing about. -/
theorem State.feed_silent (p : Port) (gs : List Group) : ∀ {s : State} {r : Receiver},
    (s.receiver p).takeAll gs = (r, []) → s.feed p gs = s.setReceiver p r := by
  induction gs with
  | nil =>
    intro s r h
    have e : s.receiver p = r := congrArg Prod.fst h
    rw [← e, State.receiver_self]
    rfl
  | cons g gs ih =>
    intro s r h
    simp only [Receiver.takeAll, Prod.mk.injEq, List.append_eq_nil_iff] at h
    have h1 : (s.receiver p).take g = (((s.receiver p).take g).1, []) := Prod.ext rfl h.2.1
    have h2 : ((s.takeGroup p g).receiver p).takeAll gs = (r, []) := by
      rw [State.takeGroup_silent h1, State.receiver_set]
      exact Prod.ext h.1 h.2.2
    have k := ih h2
    rw [State.takeGroup_silent h1, State.setReceiver_twice] at k
    rw [← k, ← State.takeGroup_silent h1]
    rfl

theorem State.feed_append (s : State) (p : Port) (xs ys : List Group) :
    s.feed p (xs ++ ys) = (s.feed p xs).feed p ys := List.foldl_append

/-- Groups of which only the last brings something about. -/
theorem State.feed_last {s : State} {p : Port} {xs : List Group} {g : Group} {q r : Receiver}
    {es : List RxEvent} (h : (s.receiver p).takeAll xs = (q, [])) (k : q.take g = (r, es)) :
    s.feed p (xs ++ [g]) = es.foldl (State.takeEvent p) (s.setReceiver p r) := by
  rw [State.feed_append, State.feed_silent p xs h]
  show (s.setReceiver p q).takeGroup p g = _
  simp only [State.takeGroup, State.receiver_set, k, State.setReceiver_twice]

/-- The groups that end a telegram: all but the last bring nothing about. -/
theorem endGroups_split (t : Telegram) (e : TelegramEnd) (h : t.body.length ≤ 60) :
    ∃ xs g q, endGroups e = xs ++ [g] ∧ (Receiver.holding t).takeAll xs = (q, []) ∧
      q.take g = (endReceiver e, endEvents t e) := by
  have whole := Receiver.take_end t e h
  have split : ∀ xs g, endGroups e = xs ++ [g] → ((Receiver.holding t).takeAll xs).2 = [] →
      ∃ xs g q, endGroups e = xs ++ [g] ∧ (Receiver.holding t).takeAll xs = (q, []) ∧
        q.take g = (endReceiver e, endEvents t e) := by
    intro xs g hx hn
    refine ⟨xs, g, _, hx, Prod.ext rfl hn, ?_⟩
    rw [hx, Receiver.takeAll_append, hn, List.nil_append] at whole
    rw [← whole]
    simp only [Receiver.takeAll, List.append_nil]
  rcases e with _ | m
  · exact split [] fillGroup rfl rfl
  · rcases m with m | _
    · cases m <;> exact split [_, _, _] _ rfl rfl
    · exact split [_, _, _] _ rfl rfl

/-- A telegram that arrives whole: the receiver moves first, then the telegram is taken, then the
LINE RESET mark that may have ended it. -/
theorem State.arrive_whole {s : State} {p : Port} {t : Telegram} (e : TelegramEnd) (h : s.ready p t) :
    s.arrive p t e =
      State.thenEnded p (State.takeEvent p (s.setReceiver p (endReceiver e)) (.telegram t)) e := by
  obtain ⟨xs, g, q, hx, hq, hg⟩ := endGroups_split t e h.2
  have hb : ∃ ys, arrivalGroups (s.receiver p) t e = ys ++ [g] ∧ (s.receiver p).takeAll ys = (q, []) := by
    have k := Receiver.takeAll_then (Receiver.take_telegram t h.2) hq
    rcases h.1 with hr | hr
    · refine ⟨markGroups (.start t.mark) ++ (Telegram.dataGroups t ++ xs), ?_, ?_⟩
      · have hne : ¬ Receiver.idle = .begun t.mark := by
          intro e
          exact absurd (congrArg Receiver.state e) (by simp [Receiver.idle, Receiver.begun])
        simp only [arrivalGroups, hr, if_neg hne, hx, List.append_assoc]
        rfl
      · rw [hr]
        exact Receiver.takeAll_then (Receiver.take_mark t.mark) k
    · refine ⟨Telegram.dataGroups t ++ xs, ?_, ?_⟩
      · simp only [arrivalGroups, hr, if_true, List.nil_append, hx, List.append_assoc]
      · rw [hr]
        exact k
  obtain ⟨ys, hy, hk⟩ := hb
  unfold State.arrive
  rw [hy, State.feed_last hk hg]
  cases e with
  | fill => cases p <;> rfl
  | mark m =>
    cases m with
    | start m => cases p <;> rfl
    | lineReset => cases p <;> rfl

/-- A telegram that arrives whole at the floor port. -/
theorem State.arrive_floor {s : State} {t : Telegram} (e : TelegramEnd) (h : s.ready .floor t) :
    s.arrive .floor t e = State.thenEnded .floor ((s.received .floor e).floorArrival t) e :=
  State.arrive_whole e h

/-- A telegram that arrives whole at the mill port. -/
theorem State.arrive_mill {s : State} {t : Telegram} (e : TelegramEnd) (h : s.ready .mill t) :
    s.arrive .mill t e = State.thenEnded .mill ((s.received .mill e).millArrival t) e :=
  State.arrive_whole e h

/-- A station that an address finds has that address. -/
theorem State.stationAt_address {s : State} {a : Byte} {r : StationRecord} (h : s.stationAt a = some r) :
    r.address = a := by
  simpa using List.find?_some h

/-- A telegram of an ACTIVE station to the part arrives whole: its silence timer is renewed, then the
owner of its kind takes it. -/
theorem State.arrive_active {s : State} {t : Telegram} {r : StationRecord} (h : FloorHead)
    (k : s.ready .floor t) (hm : t.mark = .station) (hd : t.dst = 255) (hs : t.src = h.src)
    (hr : s.stationAt h.src = some r) (ha : r.link = .active) :
    s.arrive .floor t h.ends = State.thenEnded .floor
      ((s.renewed h r).owned t r (s.stationFrameState r) false).endEvent h.ends := by
  have e : (s.received .floor h.ends).stationAt h.src = some r := hr
  have f : (s.received .floor h.ends).renewSilence r = s.renewed h r := by
    simp only [State.renewSilence, State.updateStation, State.stationAt_address hr]
    rfl
  rw [State.arrive_floor h.ends k]
  simp only [State.floorArrival, hm, hd, hs, e, ha, if_true]
  show State.thenEnded .floor ((s.received .floor h.ends).consume t r).endEvent h.ends = _
  simp only [State.consume, ha, f]
  rfl

/-- A completed step with CHAIN goes on as `chains` says. -/
theorem State.completeStep_chain {s : State} {ch : ChannelNo} {a next : Nat}
    (h : (s.stepAt a).chain = true) :
    s.completeStep ch a next = (s.setChannel ch (stopStepTimer (s.channel ch))).chains ch a next := by
  simp only [State.completeStep, State.resumeWalk, afterStep, h, if_true, State.chains, State.afterWalk,
    State.hasEnded, walkBound]
  by_cases n : 511 < next <;> simp [n, bne, ite_not]

end Sys2Proof.Machine
end

