-- ==== Sys2Proof/Laws/Tables.lean ====
section
/-! SUPPORT. The fixed-length tables: what a replaced, mapped or folded entry reads as. -/

namespace Sys2Proof.Machine

theorem putAt_get {α : Type} {n : Nat} (v : Vector α n) (i j : Fin n) (x : α) :
    (putAt v i x).get j = if i = j then x else v.get j := by
  have h : (putAt v i x)[j.val] = if i.val = j.val then x else v[j.val] :=
    Vector.getElem_set i.isLt j.isLt
  simp only [Fin.ext_iff]
  exact h

@[simp] theorem putAt_get_same {α : Type} {n : Nat} (v : Vector α n) (i : Fin n) (x : α) :
    (putAt v i x).get i = x := by simp [putAt_get]

theorem putAt_get_other {α : Type} {n : Nat} (v : Vector α n) {i j : Fin n} (h : i ≠ j) (x : α) :
    (putAt v i x).get j = v.get j := by simp [putAt_get, h]

@[simp] theorem putNat_toList {α : Type} {n : Nat} (v : Vector α n) (i : Nat) (x : α) :
    (putNat v i x).toList = v.toList.set i x := rfl

@[simp] theorem mapAll_toList {α β : Type} {n : Nat} (f : α → β) (v : Vector α n) :
    (mapAll f v).toList = v.toList.map f := rfl

@[simp] theorem mapFirst_toList {α : Type} {n : Nat} (k : Nat) (f : α → α) (v : Vector α n) :
    (mapFirst k f v).toList = (v.toList.take k).map f ++ v.toList.drop k := rfl

@[simp] theorem mapAll_get {α β : Type} {n : Nat} (f : α → β) (v : Vector α n) (i : Fin n) :
    (mapAll f v).get i = f (v.get i) := by
  obtain ⟨⟨l⟩, hl⟩ := v
  exact List.getElem_map f

theorem mapAll_length {α β : Type} {n : Nat} (f : α → β) (v : Vector α n) :
    (mapAll f v).toList.length = n := by simp

/-- The eight carriage records stand at different places. -/
theorem carriageIx_inj {f g : FrameNo} {x y : Side} : carriageIx f x = carriageIx g y ↔ f = g ∧ x = y := by
  constructor
  · intro h
    simp only [carriageIx, Fin.mk.injEq] at h
    cases x <;> cases y <;> simp only [sideNo] at h <;>
      first
        | exact ⟨Fin.ext (by omega), rfl⟩
        | omega
  · rintro ⟨rfl, rfl⟩
    rfl

/-- Bays stand at different places. -/
theorem bayIx_inj {a b : BayId} : bayIx a = bayIx b ↔ a = b := by
  constructor
  · intro h
    obtain ⟨f, x, i⟩ := a
    obtain ⟨g, y, j⟩ := b
    simp only [bayIx, Fin.mk.injEq] at h
    have hi := i.isLt
    have hj := j.isLt
    cases x <;> cases y <;> simp only [sideNo] at h
    · rw [Fin.ext (show f.val = g.val by omega), Fin.ext (show i.val = j.val by omega)]
    · omega
    · omega
    · rw [Fin.ext (show f.val = g.val by omega), Fin.ext (show i.val = j.val by omega)]
  · rintro rfl
    rfl

end Sys2Proof.Machine
end

