-- ==== Sys2Proof/Laws/Relations.lean ====
section
/-! SUPPORT. What the operations of the blocks may do, said once. `Inner s t`: from `s` to `t` no
receiver, reply, port record, table, stage, save, filed shift record or waiting command has changed,
no latched class is lost, and forwards only leave. `Walks s t`: beyond that no station record,
delivery item, drive-running flag or running count has changed, nor what a carriage last reported,
nor what a shift entry counts of delivery. -/

namespace Sys2Proof.Machine

/-- What the blocks leave of the Line Interface. -/
structure LineKept (x y : LineInterface) : Prop where
  floorRx : y.floorRx = x.floorRx
  millRx : y.millRx = x.millRx
  millReplies : y.millReplies = x.millReplies
  millForward : y.millForward = x.millForward
  millTx : y.millTx = x.millTx
  floorRecord : y.floorRecord = x.floorRecord
  millRecord : y.millRecord = x.millRecord
  floorForward : y.floorForward <:+ x.floorForward

/-- What the blocks leave of the Management Unit: all but the latched classes, which only grow. -/
structure UnitKept (x y : ManagementUnit) : Prop where
  rest : y = { x with latched := y.latched }
  latched : y.latched &&& x.latched = x.latched

/-- What the blocks leave of the Shift Counters. -/
structure ShiftKept (x y : ShiftCounters) : Prop where
  history : y.history = x.history
  second : y.second = x.second
  number : y.current.number = x.current.number
  openSeconds : y.current.openSeconds = x.current.openSeconds
  state : y.current.state = x.current.state

/-- What an entry counts of delivery, spinning and breaks. -/
structure EntryKept (x y : ShiftEntry) : Prop where
  advance : y.advance = x.advance
  spindleLength : y.spindleLength = x.spindleLength
  massUnits : y.massUnits = x.massUnits
  spinSeconds : y.spinSeconds = x.spinSeconds
  breaks : y.breaks = x.breaks
  figures : y.figures = x.figures

/-- What a carriage last reported (R89). -/
structure CarriageKept (x y : CarriageRecord) : Prop where
  position : y.position = x.position
  direction : y.direction = x.direction
  lastState : y.lastState = x.lastState

/-- What every operation of the blocks leaves. -/
structure Inner (s t : State) : Prop where
  line : LineKept s.li t.li
  unit : UnitKept s.mu t.mu
  shift : ShiftKept s.sc t.sc
  steps : t.se.steps = s.se.steps
  pending : t.pending = s.pending
  orders : s.orders ≤ t.orders

/-- What piecing, sequences and the arbiters leave. -/
structure Walks (s t : State) : Prop extends Inner s t where
  st : t.st = s.st
  di : t.di = s.di
  flags : ∀ f, (t.fm.get f).running = (s.fm.get f).running
  entries : ∀ f, EntryKept (s.sc.current.entries.get f) (t.sc.current.entries.get f)
  running : ∀ f, t.runningCount f = s.runningCount f
  carriages : ∀ f sd, CarriageKept (s.carriage f sd) (t.carriage f sd)

theorem LineKept.refl (x : LineInterface) : LineKept x x := ⟨rfl, rfl, rfl, rfl, rfl, rfl, rfl, List.suffix_refl _⟩

theorem LineKept.trans {x y z : LineInterface} (h : LineKept x y) (k : LineKept y z) : LineKept x z :=
  ⟨k.1.trans h.1, k.2.trans h.2, k.3.trans h.3, k.4.trans h.4, k.5.trans h.5, k.6.trans h.6, k.7.trans h.7,
    k.8.trans h.8⟩

theorem UnitKept.refl (x : ManagementUnit) : UnitKept x x := ⟨rfl, BitVec.and_self⟩

theorem UnitKept.trans {x y z : ManagementUnit} (h : UnitKept x y) (k : UnitKept y z) : UnitKept x z := by
  constructor
  · rw [k.1, h.1]
  · have a := h.2
    have b := k.2
    rw [← a, ← BitVec.and_assoc, b]

theorem ShiftKept.refl (x : ShiftCounters) : ShiftKept x x := ⟨rfl, rfl, rfl, rfl, rfl⟩

theorem ShiftKept.trans {x y z : ShiftCounters} (h : ShiftKept x y) (k : ShiftKept y z) : ShiftKept x z :=
  ⟨k.1.trans h.1, k.2.trans h.2, k.3.trans h.3, k.4.trans h.4, k.5.trans h.5⟩

theorem EntryKept.refl (x : ShiftEntry) : EntryKept x x := ⟨rfl, rfl, rfl, rfl, rfl, rfl⟩

theorem EntryKept.trans {x y z : ShiftEntry} (h : EntryKept x y) (k : EntryKept y z) : EntryKept x z :=
  ⟨k.1.trans h.1, k.2.trans h.2, k.3.trans h.3, k.4.trans h.4, k.5.trans h.5, k.6.trans h.6⟩

theorem CarriageKept.refl (x : CarriageRecord) : CarriageKept x x := ⟨rfl, rfl, rfl⟩

theorem CarriageKept.trans {x y z : CarriageRecord} (h : CarriageKept x y) (k : CarriageKept y z) :
    CarriageKept x z :=
  ⟨k.1.trans h.1, k.2.trans h.2, k.3.trans h.3⟩

theorem Inner.refl (s : State) : Inner s s :=
  ⟨.refl _, .refl _, .refl _, rfl, rfl, Nat.le_refl _⟩

theorem Inner.trans {s t u : State} (h : Inner s t) (k : Inner t u) : Inner s u :=
  ⟨h.1.trans k.1, h.2.trans k.2, h.3.trans k.3, k.4.trans h.4, k.5.trans h.5, Nat.le_trans h.6 k.6⟩

theorem Walks.refl (s : State) : Walks s s := ⟨.refl _, rfl, rfl, fun _ => rfl, fun _ => .refl _, fun _ => rfl, fun _ _ => .refl _⟩

theorem Walks.trans {s t u : State} (h : Walks s t) (k : Walks t u) : Walks s u :=
  ⟨h.1.trans k.1, k.2.trans h.2, k.3.trans h.3, fun f => (k.4 f).trans (h.4 f),
    fun f => (h.5 f).trans (k.5 f), fun f => (k.6 f).trans (h.6 f),
    fun f sd => (h.7 f sd).trans (k.7 f sd)⟩

theorem Inner.fold {α : Type} {g : State → α → State} (hg : ∀ s x, Inner s (g s x)) (xs : List α) :
    ∀ s, Inner s (xs.foldl g s) := by
  induction xs with
  | nil => exact .refl
  | cons x xs ih => exact fun s => (hg s x).trans (ih (g s x))

theorem Walks.fold {α : Type} {g : State → α → State} (hg : ∀ s x, Walks s (g s x)) (xs : List α) :
    ∀ s, Walks s (xs.foldl g s) := by
  induction xs with
  | nil => exact .refl
  | cons x xs ih => exact fun s => (hg s x).trans (ih (g s x))

/-! ### The updates -/

section updates
variable {s t : State}

theorem Walks.setChoices (h : Walks s t) (n : Nat) : Walks s (t.setChoices n) := ⟨⟨h.1.1, h.1.2, h.1.3, h.1.4, h.1.5, h.1.6⟩, h.2, h.3, h.4, h.5, h.6, h.7⟩
theorem Walks.setDs (h : Walks s t) (x : DoffScheduler) : Walks s (t.setDs x) := ⟨⟨h.1.1, h.1.2, h.1.3, h.1.4, h.1.5, h.1.6⟩, h.2, h.3, h.4, h.5, h.6, h.7⟩
theorem Walks.setRc (h : Walks s t) (x : RovingController) : Walks s (t.setRc x) := ⟨⟨h.1.1, h.1.2, h.1.3, h.1.4, h.1.5, h.1.6⟩, h.2, h.3, h.4, h.5, h.6, h.7⟩

theorem Walks.setChannel (h : Walks s t) (ch : ChannelNo) (c : Channel) : Walks s (t.setChannel ch c) :=
  ⟨⟨h.1.1, h.1.2, h.1.3, h.1.4, h.1.5, h.1.6⟩, h.2, h.3, h.4, h.5, h.6, h.7⟩

/-- Spindle records change, no running count does. -/
theorem Walks.setSpt (h : Walks s t) {x : Vector FrameSpindles 4}
    (k : ∀ f, (x.get f).running = (t.spt.get f).running) : Walks s (t.setSpt x) :=
  ⟨⟨h.1.1, h.1.2, h.1.3, h.1.4, h.1.5, h.1.6⟩, h.2, h.3, h.4, h.5, fun f => (k f).trans (h.6 f), h.7⟩

/-- One frame's spindle records change, its running count does not. -/
theorem Walks.setRecords (h : Walks s t) (f : FrameNo) (v : Vector SpindleRecord 1536) :
    Walks s (t.setSpt (putAt t.spt f { t.spt.get f with records := v })) := by
  apply h.setSpt
  intro g
  rw [putAt_get]
  split
  · next e => rw [← e]
  · rfl

/-- A carriage record changes, but for what the carriage last reported. -/
theorem Walks.setCarriage (h : Walks s t) (f : FrameNo) (sd : Side) {c : CarriageRecord}
    (k : CarriageKept (t.carriage f sd) c) : Walks s (t.setCarriage f sd c) := by
  refine ⟨⟨h.1.1, h.1.2, h.1.3, h.1.4, h.1.5, h.1.6⟩, h.2, h.3, h.4, h.5, h.6, fun g x => (h.7 g x).trans ?_⟩
  show CarriageKept _ ((putAt t.pd (carriageIx f sd) c).get (carriageIx g x))
  rw [putAt_get]
  split
  · next e =>
    obtain ⟨rfl, rfl⟩ := carriageIx_inj.mp e
    exact k
  · exact .refl _

theorem Walks.setSpindle (h : Walks s t) (f : FrameNo) (p : Nat) (r : SpindleRecord) :
    Walks s (t.setSpindle f p r) := h.setRecords ..

theorem Walks.setSpindleState (h : Walks s t) (f : FrameNo) (p : Nat) (x : SpindleState) :
    Walks s (t.setSpindleState f p x) := h.setSpindle ..

theorem Walks.setBay (h : Walks s t) (b : BayId) (x : BayRecord) : Walks s (t.setBay b x) := h.setRc _

/-- A frame state changes, its flag does not. -/
theorem Walks.setFrameState (h : Walks s t) (f : FrameNo) (x : FrameState) :
    Walks s (t.setFrameItem f { t.fm.get f with state := x }) := by
  refine ⟨⟨h.1.1, h.1.2, h.1.3, h.1.4, h.1.5, h.1.6⟩, h.2, h.3, fun g => ?_, h.5, h.6, h.7⟩
  rw [← h.4 g]
  show ((putAt t.fm f _).get g).running = _
  rw [putAt_get]
  split
  · next e => rw [← e]
  · rfl

/-- A count of a frame's entry changes that is none of those of delivery, spinning and breaks. -/
theorem Walks.onEntry (h : Walks s t) (f : FrameNo) {g : ShiftEntry → ShiftEntry}
    (hg : ∀ e, EntryKept e (g e)) : Walks s (t.onEntry f g) := by
  refine ⟨⟨h.1.1, h.1.2, ⟨h.1.3.1, h.1.3.2, h.1.3.3, h.1.3.4, h.1.3.5⟩, h.1.4, h.1.5, h.1.6⟩, h.2, h.3, h.4,
    fun k => (h.5 k).trans ?_, h.6, h.7⟩
  show EntryKept _ ((putAt t.sc.current.entries f _).get k)
  rw [putAt_get]
  split
  · next e => rw [← e]; exact hg _
  · exact .refl _

theorem UnitKept.latch (x : ManagementUnit) (b : Byte) :
    UnitKept x { x with latched := x.latched ||| b } := by
  constructor
  · rfl
  · apply BitVec.eq_of_getLsbD_eq
    intro i _
    simp only [BitVec.getLsbD_and, BitVec.getLsbD_or]
    cases x.latched.getLsbD i <;> cases b.getLsbD i <;> rfl

theorem Inner.latch (h : Inner s t) (c : NoticeClass) : Inner s (t.latch c) :=
  ⟨h.1, h.2.trans (.latch ..), h.3, h.4, h.5, h.6⟩

theorem Walks.latch (h : Walks s t) (c : NoticeClass) : Walks s (t.latch c) :=
  ⟨h.1.latch c, h.2, h.3, h.4, h.5, h.6, h.7⟩

theorem Walks.setLine (h : Walks s t) {x : LineInterface} (k : LineKept t.li x) : Walks s (t.setLi x) :=
  ⟨⟨h.1.1.trans k, h.1.2, h.1.3, h.1.4, h.1.5, h.1.6⟩, h.2, h.3, h.4, h.5, h.6, h.7⟩

theorem Walks.setOrders (h : Walks s t) {n : Nat} (k : t.orders ≤ n) : Walks s (t.setOrders n) :=
  ⟨⟨h.1.1, h.1.2, h.1.3, h.1.4, h.1.5, Nat.le_trans h.1.6 k⟩, h.2, h.3, h.4, h.5, h.6, h.7⟩

/-- The floor transmitter's choice (R14). -/
theorem Walks.floorChoice (h : Walks s t) : Walks s t.floorChoice := by
  unfold State.floorChoice
  split
  · exact h
  · split
    · exact h.setLine ⟨rfl, rfl, rfl, rfl, rfl, rfl, rfl, List.suffix_refl _⟩
    · next w rest _ e =>
      exact h.setLine ⟨rfl, rfl, rfl, rfl, rfl, rfl, rfl, by rw [e]; exact List.suffix_cons w rest⟩
    · exact h

theorem Walks.dropOrders (h : Walks s t) (p : Order → Bool) : Walks s (t.dropOrders p) :=
  h.setLine ⟨rfl, rfl, rfl, rfl, rfl, rfl, rfl, List.suffix_refl _⟩

/-- An order offered to the floor order queue (R15). -/
theorem Walks.offerOrder (h : Walks s t) (a : Byte) (b : OrderBody) : Walks s (t.offerOrder a b) := by
  unfold State.offerOrder
  split
  · apply Walks.floorChoice
    apply Walks.setOrders
    · exact h.setLine ⟨rfl, rfl, rfl, rfl, rfl, rfl, rfl, List.suffix_refl _⟩
    · exact Nat.le_succ _
  · exact h

end updates

/-! ### Several blocks in a free order (log 3) -/

/-- An arrangement holds items of the list it arranges. -/
theorem arrangeBy_mem {α : Type} (x : α) : ∀ n code (xs : List α), x ∈ arrangeBy n code xs → x ∈ xs := by
  intro n
  induction n with
  | zero => intro code xs h; simpa [arrangeBy] using h
  | succ n ih =>
    intro code xs h
    cases xs with
    | nil => simp [arrangeBy] at h
    | cons y ys =>
      simp only [arrangeBy, List.mem_cons] at h
      rcases h with h | h
      · rw [h, List.getD_eq_getElem?_getD]
        have hk : code % (y :: ys).length < (y :: ys).length := Nat.mod_lt _ (by simp)
        rw [List.getElem?_eq_getElem hk]
        exact List.getElem_mem hk
      · exact List.mem_of_mem_eraseIdx (ih _ _ h)

theorem arrange_mem {α : Type} {x : α} {code : Fin 24} {xs : List α} (h : x ∈ arrange code xs) : x ∈ xs :=
  arrangeBy_mem x _ _ _ h

theorem Walks.applyAll (fs : List (State → State)) (hf : ∀ f ∈ fs, ∀ s, Walks s (f s)) :
    ∀ s, Walks s (fs.foldl (fun s f => f s) s) := by
  induction fs with
  | nil => exact .refl
  | cons f fs ih =>
    exact fun s => (hf f List.mem_cons_self s).trans (ih (fun g hg => hf g (List.mem_cons_of_mem _ hg)) _)

theorem Walks.inAnyOrder {s t : State} (h : Walks s t) (fs : List (State → State))
    (hf : ∀ f ∈ fs, ∀ s, Walks s (f s)) : Walks s (inAnyOrder fs t) :=
  (h.setChoices _).trans (Walks.applyAll _ (fun f hm => hf f (arrange_mem hm)) _)

end Sys2Proof.Machine
end

