-- ==== Sys2Proof/Laws/Walks.lean ====
section
/-! SUPPORT. What piecing, roving, doffing, sequences and the arbiters can do, one lemma for each
shared operation: whatever else they change, they are `Walks`. -/

namespace Sys2Proof.Machine

section
variable {s t : State}

/-! ### Piecing -/

theorem Walks.enterList (h : Walks s t) (f : FrameNo) (sd : Side) (p : Nat) (d : Bool) :
    Walks s (t.enterList f sd p d) := (h.setCarriage _ _ (by exact ⟨rfl, rfl, rfl⟩)).setSpindleState ..

theorem Walks.updatePark (h : Walks s t) (f : FrameNo) (sd : Side) : Walks s (t.updatePark f sd) := by
  unfold State.updatePark
  simp only
  split
  · split
    · exact h
    · exact h.setCarriage _ _ (by exact ⟨rfl, rfl, rfl⟩)
  · exact h.setCarriage _ _ (by exact ⟨rfl, rfl, rfl⟩)

theorem Walks.refillOnly (h : Walks s t) (f : FrameNo) (sd : Side) : Walks s (t.refillOnly f sd) := by
  unfold State.refillOnly
  split
  · split
    · exact h.enterList ..
    · exact h
  · exact h

theorem Walks.emptyHand (h : Walks s t) (f : FrameNo) (sd : Side) : Walks s (t.emptyHand f sd) :=
  h.setCarriage _ _ (by exact ⟨rfl, rfl, rfl⟩)

theorem Walks.backToListOnly (h : Walks s t) (f : FrameNo) (sd : Side) (p : Nat) (d : Bool) :
    Walks s (t.backToListOnly f sd p d) := by
  unfold State.backToListOnly
  split
  · exact h.enterList ..
  · exact h.setSpindleState ..

theorem Walks.takeInHand (h : Walks s t) (f : FrameNo) (sd : Side) (p : Nat) :
    Walks s (t.takeInHand f sd p) :=
  (h.setSpindleState f p .piecing).setCarriage f sd (by exact ⟨rfl, rfl, rfl⟩)

theorem Walks.closeIssue (h : Walks s t) (f : FrameNo) (sd : Side) : Walks s (t.closeIssue f sd) :=
  (h.setCarriage f sd (by exact ⟨rfl, rfl, rfl⟩)).refillOnly f sd

theorem Walks.issueSpindle (h : Walks s t) (f : FrameNo) (sd : Side) (p : Nat) :
    Walks s (t.issueSpindle f sd p) := by
  have k := ((h.takeInHand f sd p).offerOrder (carriageAddress (t.record f) sd)
    (.pieceOrder f sd p ((t.spindle f p).attempts.toNat + 1))).closeIssue f sd
  unfold State.issueSpindle
  simp only
  split
  · exact k
  · exact (k.emptyHand f sd).backToListOnly ..

theorem Walks.evalIssue (h : Walks s t) (f : FrameNo) (sd : Side) : Walks s (t.evalIssue f sd) := by
  unfold State.evalIssue
  apply Walks.updatePark
  split
  · split
    · exact h.issueSpindle ..
    · exact h
  · exact h

theorem Walks.refill (h : Walks s t) (f : FrameNo) (sd : Side) : Walks s (t.refill f sd) :=
  (h.refillOnly f sd).evalIssue f sd

theorem Walks.offerSpindle (h : Walks s t) (f : FrameNo) (p : Nat) : Walks s (t.offerSpindle f p) := by
  unfold State.offerSpindle
  simp only
  split
  · exact (h.enterList ..).evalIssue ..
  · exact h

theorem Walks.leaveList (h : Walks s t) (f : FrameNo) (p : Nat) : Walks s (t.leaveList f p) :=
  (h.setCarriage _ _ (by exact ⟨rfl, rfl, rfl⟩)).refill ..

theorem Walks.clearDeferred (h : Walks s t) (f : FrameNo) (sd : Side) : Walks s (t.clearDeferred f sd) :=
  h.setCarriage _ _ (by exact ⟨rfl, rfl, rfl⟩)

theorem Walks.backToList (h : Walks s t) (f : FrameNo) (sd : Side) (p : Nat) (d : Bool) :
    Walks s (t.backToList f sd p d) := by
  unfold State.backToList
  split
  · exact (h.enterList ..).evalIssue ..
  · exact (h.setSpindleState ..).updatePark ..

theorem Walks.failSpindle (h : Walks s t) (f : FrameNo) (sd : Side) (p : Nat) :
    Walks s (t.failSpindle f sd p) := by
  have h2 := ((h.setSpindle f p { t.spindle f p with
    attempts := satAdd (t.spindle f p).attempts 1 }).onEntry f
      (g := fun e => { e with failed := satAdd e.failed 1 })
      fun _ => ⟨rfl, rfl, rfl, rfl, rfl, rfl⟩).clearDeferred f sd
  unfold State.failSpindle
  simp only
  split
  · exact ((h2.setSpindleState f p .locked).latch .lockout).onEntry f
      fun _ => ⟨rfl, rfl, rfl, rfl, rfl, rfl⟩
  · exact h2.backToList ..

theorem Walks.returnHand (h : Walks s t) (f : FrameNo) (sd : Side) : Walks s (t.returnHand f sd) := by
  unfold State.returnHand
  split
  · exact (h.emptyHand f sd).backToList ..
  · exact h

theorem Walks.pieceRemoved (h : Walks s t) (f : FrameNo) (sd : Side) (n : Nat) :
    Walks s (t.pieceRemoved f sd n) := by
  unfold State.pieceRemoved
  split
  · split
    · exact h.returnHand ..
    · exact h
  · exact h

theorem Walks.clearCarriageFlags (h : Walks s t) (f : FrameNo) (sd : Side) :
    Walks s (t.clearCarriageFlags f sd) := (h.setCarriage _ _ (by exact ⟨rfl, rfl, rfl⟩)).updatePark ..

theorem Walks.carriageRestarted (h : Walks s t) (f : FrameNo) (sd : Side) :
    Walks s (t.carriageRestarted f sd) := by
  unfold State.carriageRestarted
  simp only
  split
  · split
    · exact (h.clearCarriageFlags f sd).returnHand ..
    · exact h.clearCarriageFlags f sd
  · exact h.clearCarriageFlags f sd

theorem Walks.piecingExpired (h : Walks s t) (f : FrameNo) (sd : Side) :
    Walks s (t.piecingExpired f sd) := by
  unfold State.piecingExpired
  split
  · exact h
  · split
    · exact ((h.emptyHand f sd).failSpindle ..).evalIssue ..
    · exact (h.returnHand f sd).evalIssue ..

theorem Walks.parkExpired (h : Walks s t) (f : FrameNo) (sd : Side) : Walks s (t.parkExpired f sd) :=
  ((h.offerOrder _ _).setCarriage f sd (by exact ⟨rfl, rfl, rfl⟩)).updatePark f sd

theorem Walks.pieceSent (h : Walks s t) (f : FrameNo) (sd : Side) (n : Nat) :
    Walks s (t.pieceSent f sd n) := by
  unfold State.pieceSent
  simp only
  split
  · split
    · exact h.setCarriage _ _ (by exact ⟨rfl, rfl, rfl⟩)
    · exact h
  · exact h

theorem Walks.piecingOnFrame (h : Walks s t) (f : FrameNo) : Walks s (t.piecingOnFrame f) := by
  unfold State.piecingOnFrame
  split
  · apply h.inAnyOrder
    intro g hg u
    simp only [List.mem_cons, List.not_mem_nil, or_false] at hg
    rcases hg with rfl | rfl <;> exact (Walks.refl u).evalIssue ..
  · exact (h.updatePark f .a).updatePark f .b

/-! ### Roving -/

theorem Walks.listCall (h : Walks s t) (b : BayId) : Walks s (t.listCall b) := h.setRc _

theorem Walks.newCall (h : Walks s t) (b : BayId) (c : CallClass) : Walks s (t.newCall b c) :=
  (h.setBay ..).setRc _

theorem Walks.unlistCall (h : Walks s t) (b : BayId) : Walks s (t.unlistCall b) := h.setRc _

theorem Walks.dropCall (h : Walks s t) (b : BayId) : Walks s (t.dropCall b) := (h.unlistCall b).setBay ..

theorem Walks.urgentCall (h : Walks s t) (b : BayId) : Walks s (t.urgentCall b) := by
  unfold State.urgentCall
  split
  · exact (h.newCall ..).latch _
  · exact (h.setBay ..).latch _
  · exact h
  · exact h

theorem Walks.planBay (h : Walks s t) (b : BayId) : Walks s (t.planBay b) := by
  unfold State.planBay
  split
  · exact h.newCall ..
  · exact h

theorem Walks.planFrame (h : Walks s t) (f : FrameNo) : Walks s (t.planFrame f) :=
  h.trans (Walks.fold (fun u b => (Walks.refl u).planBay b) _ _)

theorem Walks.unstarve (h : Walks s t) (f : FrameNo) (p : Nat) : Walks s (State.unstarve f t p) := by
  unfold State.unstarve
  split
  · exact (h.setSpindleState ..).offerSpindle ..
  · exact h

theorem Walks.exchangeMark (h : Walks s t) : Walks s t.exchangeMark := by
  unfold State.exchangeMark
  split
  · exact h
  · next c _ =>
    have h2 := (h.setBay c.bay { t.bay c.bay with mark := t.odometer c.bay.frame }).dropCall c.bay
    exact ((h2.trans (Walks.fold (fun u p => (Walks.refl u).unstarve c.bay.frame p) _ _)).onEntry
      c.bay.frame (g := fun e => { e with exchanges := satAdd e.exchanges 1 })
      fun _ => ⟨rfl, rfl, rfl, rfl, rfl, rfl⟩).setRc _

theorem Walks.settleBay (h : Walks s t) : Walks s t.settleBay := by
  unfold State.settleBay
  split
  · exact h
  · simp only
    apply Walks.setRc
    split
    · exact h
    · split
      · exact ((h.setBay ..).listCall _).latch _
      · exact (h.setBay ..).listCall _

theorem Walks.serveBay (h : Walks s t) (b : BayId) : Walks s (t.serveBay b) :=
  ((h.setBay ..).unlistCall b).setRc _

theorem Walks.dropFrameCalls (h : Walks s t) (f : FrameNo) : Walks s (t.dropFrameCalls f) :=
  h.trans (Walks.fold (fun u b => (Walks.refl u).dropCall b) _ _)

theorem Walks.clearBays (h : Walks s t) (f : FrameNo) : Walks s (t.clearBays f) :=
  (h.trans (Walks.fold (fun u b => (Walks.refl u).setBay b _) _ _)).dropFrameCalls f

theorem Walks.recallBay (h : Walks s t) (b : BayId) : Walks s (t.recallBay b) := by
  unfold State.recallBay
  split
  · exact h.urgentCall b
  · exact h

/-! ### Doffing -/

theorem Walks.enterDoff (h : Walks s t) (f : FrameNo) : Walks s (t.enterDoff f) := h.setDs _

theorem Walks.dropDoff (h : Walks s t) (f : FrameNo) : Walks s (t.dropDoff f) := h.setDs _

theorem Walks.doffMark (h : Walks s t) (f : FrameNo) : Walks s (t.doffMark f) :=
  (((h.setRecords ..).setDs _).onEntry f (g := fun e => { e with doffs := satAdd e.doffs 1 })
    fun _ => ⟨rfl, rfl, rfl, rfl, rfl, rfl⟩).dropDoff f

/-! ### Sequences -/

theorem Walks.endSequence (h : Walks s t) (ch : ChannelNo) (a : Nat) (e : EndCondition) :
    Walks s (t.endSequence ch a e) := by
  unfold State.endSequence
  simp only
  split
  · exact (h.setChannel ..).dropOrders _
  · exact ((h.setChannel ..).dropOrders _).latch _

theorem Walks.enterStep (h : Walks s t) (ch : ChannelNo) (a : Nat) (w : StepWord) :
    Walks s (t.enterStep ch a w) := by
  unfold State.enterStep
  simp only
  split
  · exact (h.setChannel ..).latch _
  · exact h.setChannel ..

theorem Walks.beginCommand (h : Walks s t) (ch : ChannelNo) (w : StepWord) :
    Walks s (t.beginCommand ch w).1 := by
  unfold State.beginCommand
  simp only
  split
  · exact h
  · split
    · exact (h.setChannel ..).offerOrder _ _
    · exact h

theorem Walks.beginTimed (h : Walks s t) (ch : ChannelNo) (w : StepWord) (p : StepPhase) :
    Walks s (t.beginTimed ch w p) := h.setChannel ..

theorem Walks.performMark (h : Walks s t) (ch : ChannelNo) : Walks s (t.performMark ch) := by
  unfold State.performMark
  split
  · exact h.doffMark _
  · exact h.exchangeMark

theorem Walks.performStep (h : Walks s t) (ch : ChannelNo) (a : Nat) (w : StepWord) :
    Walks s (t.performStep ch a w).1 := by
  unfold State.performStep
  split
  · exact h
  · exact h
  · exact h.beginCommand ..
  · split
    · exact h
    · exact h.beginTimed ..
  · split
    · exact h
    · exact h.beginTimed ..
  · exact h
  · exact h.setChannel ..
  · exact h.setChannel ..
  · exact h.performMark ch

theorem Walks.walkSteps (ch : ChannelNo) : ∀ (n a : Nat) (first : Bool) (t : State), Walks s t →
    Walks s (State.walkSteps n ch a first t) := by
  intro n
  induction n with
  | zero => exact fun a _ t h => h.endSequence ch a _
  | succ n ih =>
    intro a first t h
    unfold State.walkSteps
    simp only
    split
    · exact h.endSequence ..
    · have k := (h.enterStep ch a (t.stepAt a)).performStep ch a (t.stepAt a)
      split
      · next e => rw [e] at k; exact k
      · next e => rw [e] at k; exact k.endSequence ..
      · next e => rw [e] at k; exact ih _ _ _ k

theorem Walks.resumeWalk (h : Walks s t) (ch : ChannelNo) (a : Nat) (w : StepWord) (n : Nat) :
    Walks s (t.resumeWalk ch a w n) := by
  unfold State.resumeWalk
  split
  · exact Walks.walkSteps ch _ _ _ _ h
  · exact h.endSequence ..
  · exact h

theorem Walks.enterDoffing (h : Walks s t) (f : FrameNo) : Walks s (t.enterDoffing f) :=
  (h.setFrameState f .doffing).piecingOnFrame f

theorem Walks.startSequence (h : Walks s t) (ch : ChannelNo) (a : Nat) (c : StartCause) :
    Walks s (t.startSequence ch a c) := by
  unfold State.startSequence
  simp only
  apply Walks.walkSteps
  split
  · exact (h.setChannel ..).enterDoffing _
  · exact h.setChannel ..

/-! ### The arbiters -/

theorem Walks.trainChoice (h : Walks s t) : Walks s t.trainChoice.1 := by
  unfold State.trainChoice
  split
  · split
    · exact h
    · next b _ =>
      have k := (h.serveBay b).startSequence trainChannel t.mu.row.exchangeStart.toNat .exchange
      revert k
      generalize (t.serveBay b).startSequence trainChannel t.mu.row.exchangeStart.toNat .exchange = u
      intro k
      cases e : u.hasEnded trainChannel
      · simpa [e] using k
      · simpa [e] using k.settleBay
  · exact h

theorem Walks.leaveDoffing (h : Walks s t) (f : FrameNo) : Walks s (t.leaveDoffing f) := h.setFrameState f _

theorem Walks.dropIfAbsent (h : Walks s t) (f : FrameNo) : Walks s (t.dropIfAbsent f) := by
  unfold State.dropIfAbsent
  split
  · exact h.dropDoff f
  · exact h

theorem Walks.doffEnded (h : Walks s t) (f : FrameNo) {permit train : State → State}
    (hp : ∀ u, Walks u (permit u)) (ht : ∀ u, Walks u (train u)) : Walks s (t.doffEnded f permit train) := by
  apply (h.leaveDoffing f).inAnyOrder
  intro g hg u
  simp only [List.mem_cons, List.not_mem_nil, or_false] at hg
  rcases hg with rfl | rfl | rfl
  · exact (Walks.refl u).piecingOnFrame f
  · exact (((Walks.refl u).dropIfAbsent f).setDs _).trans (hp _)
  · exact ht u

theorem Walks.grantDoff (h : Walks s t) (f : FrameNo) : Walks s (t.grantDoff f) := by
  unfold State.grantDoff
  simp only
  split
  · exact (((h.dropDoff f).setDs _).startSequence ..).doffEnded f .refl
      fun u => (Walks.refl u).trainChoice
  · exact ((h.dropDoff f).setDs _).startSequence ..

theorem Walks.walkRequest (h : Walks s t) (f : FrameNo) : Walks s (t.walkRequest f) := by
  unfold State.walkRequest
  split
  · exact h.grantDoff f
  · exact h

theorem Walks.permitArbiter (h : Walks s t) : Walks s t.permitArbiter :=
  h.trans (Walks.fold (fun u f => (Walks.refl u).walkRequest f) _ _)

theorem Walks.trainArbiter (h : Walks s t) : Walks s t.trainArbiter := by
  unfold State.trainArbiter
  split
  · exact h.trainChoice.permitArbiter
  · exact h.trainChoice

theorem Walks.channelIdle (h : Walks s t) (ch : ChannelNo) : Walks s (t.channelIdle ch) := by
  unfold State.channelIdle
  split
  · exact h.permitArbiter
  · exact h

theorem Walks.trainIdle (h : Walks s t) : Walks s t.trainIdle := by
  unfold State.trainIdle
  split
  · exact h.trainArbiter
  · exact h

theorem Walks.exchangeEnded (h : Walks s t) : Walks s t.exchangeEnded := by
  apply h.settleBay.inAnyOrder
  intro g hg u
  simp only [List.mem_cons, List.not_mem_nil, or_false] at hg
  rcases hg with rfl | rfl
  · exact (Walks.refl u).permitArbiter
  · exact (Walks.refl u).trainIdle

theorem Walks.handEnding (h : Walks s t) (ch : ChannelNo) : Walks s (t.handEnding ch) := by
  unfold State.handEnding
  split
  · exact (h.doffEnded _ (fun u => (Walks.refl u).permitArbiter)
      fun u => (Walks.refl u).trainArbiter).channelIdle ch
  · exact h.channelIdle ch
  · exact h.exchangeEnded
  · exact h.trainIdle

theorem Walks.afterWalk (h : Walks s t) (ch : ChannelNo) : Walks s (t.afterWalk ch) := by
  unfold State.afterWalk
  split
  · exact h.handEnding ch
  · exact h

theorem Walks.finishSequence (h : Walks s t) (ch : ChannelNo) (a : Nat) (e : EndCondition) :
    Walks s (t.finishSequence ch a e) := (h.endSequence ch a e).handEnding ch

theorem Walks.completeStep (h : Walks s t) (ch : ChannelNo) (a n : Nat) :
    Walks s (t.completeStep ch a n) := ((h.setChannel ..).resumeWalk ..).afterWalk ch

theorem Walks.startByMill (h : Walks s t) (ch : ChannelNo) (a : Nat) : Walks s (t.startByMill ch a) :=
  (h.startSequence ..).afterWalk ch

theorem Walks.watchFrame (h : Walks s t) (f : FrameNo) : Walks s (t.watchFrame f) := by
  unfold State.watchFrame
  simp only
  split
  · split
    · exact h.completeStep ..
    · exact h
  · exact h

theorem Walks.doffOnFrame (h : Walks s t) (f : FrameNo) : Walks s (t.doffOnFrame f) := by
  unfold State.doffOnFrame
  split
  · exact h.dropDoff f
  · exact h
  · exact h.permitArbiter

theorem Walks.announceFrame (h : Walks s t) (f : FrameNo) (old : FrameState) :
    Walks s (t.announceFrame f old) := by
  unfold State.announceFrame
  split
  · exact h.watchFrame f
  · apply h.inAnyOrder
    intro g hg u
    simp only [List.mem_cons, List.not_mem_nil, or_false] at hg
    rcases hg with rfl | rfl | rfl
    · exact (Walks.refl u).piecingOnFrame f
    · exact (Walks.refl u).watchFrame f
    · exact (Walks.refl u).doffOnFrame f

theorem Walks.announceIdle (h : Walks s t) : Walks s t.announceIdle :=
  h.trans (Walks.fold (fun u f => (Walks.refl u).watchFrame f) _ _)

theorem Walks.starved (h : Walks s t) (f : FrameNo) (p : Nat) : Walks s (t.starved f p) := by
  unfold State.starved
  simp only
  split
  · exact (h.urgentCall _).trainArbiter
  · exact h

theorem Walks.starveSpindle (h : Walks s t) (f : FrameNo) (p : Nat) : Walks s (t.starveSpindle f p) :=
  (h.setSpindleState ..).starved ..

theorem Walks.brokenOffer (h : Walks s t) (f : FrameNo) (p : Nat) : Walks s (t.brokenOffer f p) :=
  (h.setSpindleState ..).offerSpindle ..

theorem Walks.releaseSpindle (h : Walks s t) (f : FrameNo) (p : Nat) : Walks s (t.releaseSpindle f p) :=
  (h.setSpindle ..).brokenOffer ..

theorem Walks.doffAnnounced (h : Walks s t) (f : FrameNo) : Walks s (t.doffAnnounced f) := by
  unfold State.doffAnnounced
  split
  · exact (h.enterDoff f).permitArbiter
  · exact h

theorem Walks.rovingAnnounced (h : Walks s t) (f : FrameNo) : Walks s (t.rovingAnnounced f) := by
  unfold State.rovingAnnounced
  simp only
  split
  · exact h.planFrame f
  · exact (h.planFrame f).trainArbiter

theorem Walks.announceOdometer (h : Walks s t) (f : FrameNo) : Walks s (t.announceOdometer f) := by
  apply h.inAnyOrder
  intro g hg u
  simp only [List.mem_cons, List.not_mem_nil, or_false] at hg
  rcases hg with rfl | rfl
  · exact (Walks.refl u).doffAnnounced f
  · exact (Walks.refl u).rovingAnnounced f

/-! ### Carriage reports, step reports and their timers -/

theorem Walks.flagStep (h : Walks s t) (f : FrameNo) (sd : Side) (x : CarriageState) :
    Walks s (t.flagStep f sd x) := by
  cases x
  · exact h.setCarriage _ _ (by exact ⟨rfl, rfl, rfl⟩)
  · exact h
  · exact h
  · exact h.setCarriage _ _ (by exact ⟨rfl, rfl, rfl⟩)
  · exact h

theorem Walks.decideStep (h : Walks s t) (ch : ChannelNo) (a : Nat) (b : StepBody) :
    Walks s (t.decideStep ch a b) := by
  have k : Walks s (t.recordReport ch b) := h.setChannel ..
  unfold State.decideStep
  simp only
  split
  · exact k.finishSequence ..
  · split
    · exact k.finishSequence ..
    · exact k.completeStep ..

theorem Walks.stepSent (h : Walks s t) (ch : ChannelNo) (n : Nat) : Walks s (t.stepSent ch n) := by
  unfold State.stepSent
  simp only
  split
  · split
    · exact h.setChannel ..
    · exact h
  · exact h

theorem Walks.stepExpiry (h : Walks s t) (ch : ChannelNo) : Walks s (t.stepExpiry ch) := by
  have k : Walks s (t.setChannel ch { t.channel ch with timer := .running 0 }) := h.setChannel ..
  unfold State.stepExpiry
  simp only
  split
  · split
    · exact k.completeStep ..
    · exact k.finishSequence ..
    · exact k.finishSequence ..
    · exact h
  · exact h

theorem Walks.cutSequence (h : Walks s t) (ch : ChannelNo) (e : EndCondition) :
    Walks s (t.cutSequence ch e) := h.finishSequence ..

theorem Walks.clearEnded (h : Walks s t) (ch : ChannelNo) : Walks s (t.clearEnded ch) := by
  have k : Walks s (t.setChannel ch { t.channel ch with state := .idle }) := h.setChannel ..
  unfold State.clearEnded
  simp only
  split
  · exact k.channelIdle ch
  · exact k.trainIdle

theorem Walks.parkExpiry (h : Walks s t) (f : FrameNo) (sd : Side) : Walks s (t.parkExpiry f sd) := by
  unfold State.parkExpiry
  split
  · exact h.parkExpired f sd
  · exact h
  · exact h

end

end Sys2Proof.Machine
end

