-- ==== Sys2Proof/Laws/Inner.lean ====
section
/-! SUPPORT. What the operations of the Station Table, the Delivery Integrator and the Spindle Table
can do, one lemma for each shared operation: whatever else they change, they are `Inner`; so is all
that a consumed floor telegram or a management command does before its reply. -/

namespace Sys2Proof.Machine

section
variable {s t : State}

/-! ### The updates -/

theorem Inner.setSt (h : Inner s t) (x : List StationRecord) : Inner s (t.setSt x) := ⟨h.1, h.2, h.3, h.4, h.5, h.6⟩
theorem Inner.setFm (h : Inner s t) (x : Vector FrameItem 4) : Inner s (t.setFm x) := ⟨h.1, h.2, h.3, h.4, h.5, h.6⟩
theorem Inner.setDi (h : Inner s t) (x : Vector DeliveryItem 4) : Inner s (t.setDi x) := ⟨h.1, h.2, h.3, h.4, h.5, h.6⟩

theorem Inner.onEntry (h : Inner s t) (f : FrameNo) (g : ShiftEntry → ShiftEntry) : Inner s (t.onEntry f g) :=
  ⟨h.1, h.2, ⟨h.3.1, h.3.2, h.3.3, h.3.4, h.3.5⟩, h.4, h.5, h.6⟩

theorem Inner.updateStation (h : Inner s t) (a : Byte) (g : StationRecord → StationRecord) :
    Inner s (t.updateStation a g) := h.setSt _

theorem Inner.setFrameItem (h : Inner s t) (f : FrameNo) (x : FrameItem) : Inner s (t.setFrameItem f x) := h.setFm _

theorem Inner.setDelivery (h : Inner s t) (f : FrameNo) (x : DeliveryItem) : Inner s (t.setDelivery f x) := h.setDi _

theorem Inner.unsetReference (h : Inner s t) (f : FrameNo) : Inner s (t.unsetReference f) := h.setDelivery ..

/-- Whatever walks is inner. -/
theorem Inner.walk (h : Inner s t) {u : State} (k : Walks t u) : Inner s u := h.trans k.1

theorem Inner.setSpt (h : Inner s t) (x : Vector FrameSpindles 4) : Inner s (t.setSpt x) := ⟨h.1, h.2, h.3, h.4, h.5, h.6⟩
theorem Inner.setPd (h : Inner s t) (x : Vector CarriageRecord 8) : Inner s (t.setPd x) := ⟨h.1, h.2, h.3, h.4, h.5, h.6⟩

/-! ### Spindles and carriages -/

theorem Inner.joinSpindle (h : Inner s t) (f : FrameNo) (p : Nat) : Inner s (t.joinSpindle f p) :=
  Inner.setSpt (Inner.setSpt h _) _

theorem Inner.clearSpindles (h : Inner s t) (f : FrameNo) : Inner s (t.clearSpindles f) := h.setSpt _

theorem Inner.clearCarriages (h : Inner s t) (f : FrameNo) : Inner s (t.clearCarriages f) :=
  Inner.setPd (Inner.setPd h _) _

theorem Inner.takeOutcome (h : Inner s t) (f : FrameNo) (sd : Side) (o : PieceOutcome) (p : Nat) :
    Inner s (t.takeOutcome f sd o p) := by
  have e := (Walks.refl t).emptyHand f sd
  cases o
  · exact ((h.walk (e.clearDeferred f sd)).joinSpindle f p).onEntry f
      fun e => { e with pieced := satAdd e.pieced 1 }
  · exact h.walk (e.backToList ..)
  · exact h.walk ((e.clearDeferred f sd).starveSpindle f p)
  · exact h.walk ((((e.clearDeferred f sd).setSpindleState f p .locked).latch .lockout).onEntry f
      (g := fun e => { e with lockouts := satAdd e.lockouts 1 }) fun _ => ⟨rfl, rfl, rfl, rfl, rfl, rfl⟩)
  · exact h.walk (e.failSpindle ..)

theorem Inner.outcomeStep (h : Inner s t) (f : FrameNo) (sd : Side) (b : CarriageBody) :
    Inner s (t.outcomeStep f sd b) := by
  unfold State.outcomeStep
  split
  · split
    · exact h.takeOutcome ..
    · exact h
  · exact h

theorem Inner.readCarriage (h : Inner s t) (f : FrameNo) (sd : Side) (b : CarriageBody) :
    Inner s (t.readCarriage f sd b) :=
  (Inner.outcomeStep (Inner.setPd h _) f sd b).walk
    (((Walks.refl _).flagStep f sd b.state).evalIssue f sd)

/-! ### Stations -/

theorem Inner.setFlag (h : Inner s t) (a : Byte) (x : ChangeFlag) : Inner s (t.setFlag a x) :=
  (h.updateStation ..).latch _

theorem Inner.driveChanged (h : Inner s t) (f : FrameNo) (x : FrameState) : Inner s (t.driveChanged f x) :=
  (h.setFrameItem ..).unsetReference f

theorem Inner.loseStation (h : Inner s t) (r : StationRecord) : Inner s (t.loseStation r) := by
  unfold State.loseStation
  split
  · exact h.walk ((Walks.refl t).finishSequence ..)
  · exact h

theorem Inner.reportRemoval (h : Inner s t) (o : Order) : Inner s (t.reportRemoval o) := by
  unfold State.reportRemoval
  split
  · exact h.walk ((Walks.refl t).pieceRemoved ..)
  · simp only
    split
    · split
      · exact h.walk ((Walks.refl t).finishSequence ..)
      · exact h
    · exact h
  · exact h
  · exact h

theorem Inner.removeOrders (h : Inner s t) (a : Byte) (x : LinkState) : Inner s (t.removeOrders a x) :=
  (h.walk ((Walks.refl t).dropOrders _)).trans (Inner.fold (fun u o => (Inner.refl u).reportRemoval o) _ _)

theorem Inner.departed (h : Inner s t) (r : StationRecord) (old : FrameState) :
    Inner s (t.departed r old) := by
  unfold State.departed
  simp only
  apply Inner.loseStation
  split
  · exact (h.driveChanged ..).walk ((Walks.refl _).announceFrame ..)
  · exact h.walk ((Walks.refl _).clearCarriageFlags ..)
  · exact h

theorem Inner.returnIfTaken (h : Inner s t) (r : StationRecord) (x : LinkState) :
    Inner s (t.returnIfTaken r x) := by
  unfold State.returnIfTaken
  split
  · split
    · exact h.walk ((Walks.refl _).returnHand ..)
    · exact h
  · exact h

theorem Inner.unlink (h : Inner s t) (r : StationRecord) (x : LinkState) (j : Option FrameState) :
    Inner s (t.unlink r x j) := by
  have k := (h.updateStation r.address fun y => { y with link := x, timer := .stopped }).removeOrders
    r.address x
  unfold State.unlink
  simp only
  apply Inner.returnIfTaken
  split
  · exact k.departed r _
  · exact k

theorem Inner.joinStation (h : Inner s t) (r : StationRecord) : Inner s (t.joinStation r) := by
  have k := ((h.updateStation r.address fun y => { y with
    link := .active
    errorCount := 0
    timer := timerTenths (silenceLimit t.mu.row r.role) }).setFlag r.address (joinFlag r.link)).removeOrders
      r.address .active
  unfold State.joinStation
  simp only
  split
  · exact k.driveChanged ..
  · exact k.walk ((Walks.refl _).updatePark ..)
  · exact k.walk (Walks.refl _).trainArbiter
  · exact k

theorem Inner.renewSilence (h : Inner s t) (r : StationRecord) : Inner s (t.renewSilence r) := h.updateStation ..

theorem Inner.resetStation (h : Inner s t) (r : StationRecord) (j : Option FrameState) :
    Inner s (t.resetStation r j) :=
  ((h.unlink r .resetting j).updateStation ..).walk ((Walks.refl _).offerOrder _ _)

theorem Inner.disableStation (h : Inner s t) (r : StationRecord) : Inner s (t.disableStation r) := by
  unfold State.disableStation
  split
  · exact h
  · exact (h.setFlag ..).unlink ..

/-- A fault counted against a station, with the reset that the error limit may bring. -/
theorem Inner.countError (h : Inner s t) (a : Byte) (j : Option FrameState) : Inner s (t.countError a j) := by
  have k := (h.updateStation a fun y => { y with errorCount := satAdd y.errorCount 1 }).setFlag a .errors
  unfold State.countError
  simp only
  split
  · exact k
  · split
    · exact k.resetStation ..
    · exact k

theorem Inner.announceDrive (h : Inner s t) (r : StationRecord) (old : FrameState) :
    Inner s (t.announceDrive r old) := by
  unfold State.announceDrive
  split
  · exact h.walk ((Walks.refl t).announceFrame ..)
  · exact h

theorem Inner.announceJoin (h : Inner s t) (r : StationRecord) (old : FrameState) (j : Bool) :
    Inner s (t.announceJoin r old j) := by
  unfold State.announceJoin
  split
  · exact h.announceDrive ..
  · exact h

/-- A fault of an arrival, with the reset that the error limit may bring and the one announcement. -/
theorem Inner.faultOfArrival (h : Inner s t) (r : StationRecord) (old : FrameState) (j : Bool) :
    Inner s (t.faultOfArrival r old j) := by
  have k := h.countError r.address (if j then some old else none)
  unfold State.faultOfArrival
  by_cases e : isActive ((t.countError r.address (if j then some old else none)).stationAt r.address) = true
  · simpa only [e, if_true] using k.announceJoin ..
  · simpa only [e, Bool.false_eq_true, if_false] using k

theorem Inner.silenceExpired (h : Inner s t) (r : StationRecord) : Inner s (t.silenceExpired r) := by
  unfold State.silenceExpired
  split
  · exact (h.setFlag ..).unlink ..
  · exact h

theorem Inner.resetWaitExpired (h : Inner s t) (r : StationRecord) : Inner s (t.resetWaitExpired r) := by
  unfold State.resetWaitExpired
  split
  · exact (h.setFlag ..).unlink ..
  · exact h

theorem Inner.resetSent (h : Inner s t) (a : Byte) (n : Nat) : Inner s (t.resetSent a n) := h.updateStation ..

theorem Inner.restarted (h : Inner s t) (r : StationRecord) : Inner s (t.restarted r) := by
  unfold State.restarted
  simp only
  split
  · exact ((h.setFlag ..).setFrameItem ..).unsetReference _
  · exact (h.setFlag ..).walk ((Walks.refl _).carriageRestarted ..)
  · exact h.setFlag ..

theorem Inner.removedStation (h : Inner s t) (r : StationRecord) : Inner s (t.removedStation r) := by
  have k := h.removeOrders r.address .absent
  unfold State.removedStation
  simp only
  split
  · exact k.departed r _
  · split
    · exact (k.driveChanged ..).walk ((Walks.refl _).announceFrame ..)
    · exact k

theorem Inner.rebuildStations (h : Inner s t) : Inner s t.rebuildStations :=
  (h.setSt _).trans (Inner.fold (fun u r => (Inner.refl u).removedStation r) _ _)

/-! ### Delivery and break watch -/

theorem Inner.accrue (h : Inner s t) (f : FrameNo) (n : Nat) : Inner s (t.accrue f n) := by
  unfold State.accrue
  exact h.onEntry ..

theorem Inner.integrate (h : Inner s t) (f : FrameNo) (b : DeliveryBody) : Inner s (t.integrate f b) := by
  have k : Inner s (t.setDelivery f ⟨(t.di.get f).odometer +
      BitVec.ofNat 40 (deliveredBy (t.record f) (t.di.get f) b.count).length,
    (deliveredBy (t.record f) (t.di.get f) b.count).remainder, some b.count, some b.speed⟩) :=
    h.setDelivery ..
  unfold State.integrate
  simp only
  split
  · exact (k.latch _).accrue ..
  · exact k.accrue ..

theorem Inner.deliver (h : Inner s t) (f : FrameNo) (old : FrameState) (b : DeliveryBody) :
    Inner s (t.deliver f old b) :=
  (((h.setFrameItem f _).walk ((Walks.refl _).announceFrame f old)).integrate f b).walk
    ((Walks.refl _).announceOdometer f)

theorem Inner.breakSpindle (h : Inner s t) (f : FrameNo) (p : Nat) (x : SpindleState) :
    Inner s (t.breakSpindle f p x) := by
  unfold State.breakSpindle
  exact Inner.onEntry (Inner.setSpt (Inner.setSpt h _) _) ..

theorem Inner.breakTo (h : Inner s t) (f : FrameNo) (p : Nat) (x : SpindleState) :
    Inner s (t.breakTo f p x) := by
  have k := h.breakSpindle f p x
  unfold State.breakTo
  simp only
  split
  · exact k.walk ((Walks.refl _).offerSpindle ..)
  · exact k.walk ((Walks.refl _).starved ..)
  · exact k.latch _
  · exact k

theorem Inner.takeCode (h : Inner s t) (f : FrameNo) (x : Nat × SpindleCode) :
    Inner s (State.takeCode f t x) := by
  have join := h.joinSpindle f x.1
  have offer := h.walk ((Walks.refl t).brokenOffer f x.1)
  have starve := h.walk ((Walks.refl t).starveSpindle f x.1)
  unfold State.takeCode
  split
  · exact join
  · exact offer
  · exact h
  · exact starve
  · exact h
  · exact h.breakTo ..
  · exact h.breakTo ..
  · exact h.breakTo ..
  · exact join
  · exact h
  · exact h
  · exact starve
  · exact join.walk ((Walks.refl _).leaveList f x.1)
  · exact h
  · exact h
  · exact h.walk ((((Walks.refl t).setSpindleState f x.1 .starved).leaveList f x.1).starved f x.1)
  · exact h
  · exact join
  · exact offer
  · exact h
  · exact h
  · exact join
  · exact h
  · exact h
  · exact h

theorem Inner.takeSection (h : Inner s t) (r : StationRecord) (body : List Byte) :
    Inner s (t.takeSection r body) := by
  unfold State.takeSection
  split
  · split
    · exact h.countError ..
    · split
      · exact h.trans (Inner.fold (fun u x => (Inner.refl u).takeCode _ x) _ _)
      · exact h
  · exact h.countError ..

theorem Inner.takeCarriage (h : Inner s t) (r : StationRecord) (body : List Byte) :
    Inner s (t.takeCarriage r body) := by
  unfold State.takeCarriage
  split
  · split
    · simp only
      split
      · exact (h.readCarriage ..).countError ..
      · exact h.readCarriage ..
    · exact h.countError ..
  · exact h.countError ..

theorem Inner.takeStep (h : Inner s t) (r : StationRecord) (old : FrameState) (j : Bool) (body : List Byte) :
    Inner s (t.takeStep r old j body) := by
  unfold State.takeStep
  split
  · exact h.faultOfArrival ..
  · split
    · exact (h.announceJoin ..).walk ((Walks.refl _).decideStep ..)
    · exact h.faultOfArrival ..

theorem Inner.piecingExpiry (h : Inner s t) (f : FrameNo) (sd : Side) : Inner s (t.piecingExpiry f sd) := by
  have k := h.walk ((Walks.refl t).piecingExpired f sd)
  unfold State.piecingExpiry
  simp only
  split
  · split
    · exact k.countError ..
    · exact k
  · exact h

/-! ### A consumed floor telegram -/

theorem Inner.takeDelivery (h : Inner s t) (r : StationRecord) (old : FrameState) (j : Bool)
    (body : List Byte) : Inner s (t.takeDelivery r old j body) := by
  unfold State.takeDelivery
  split
  · exact h.deliver ..
  · exact h.faultOfArrival ..

theorem Inner.takeReset (h : Inner s t) (r : StationRecord) (old : FrameState) (j : Bool)
    (body : List Byte) : Inner s (t.takeReset r old j body) := by
  unfold State.takeReset
  split
  · exact (h.restarted r).announceDrive ..
  · exact h.faultOfArrival ..

theorem Inner.owned (h : Inner s t) (x : Telegram) (r : StationRecord) (old : FrameState) (j : Bool) :
    Inner s (t.owned x r old j) := by
  unfold State.owned
  split
  · split
    · exact h.takeSection ..
    · exact h.takeDelivery ..
    · exact h.takeCarriage ..
    · exact h.takeStep ..
    · exact h.takeReset ..
  · exact h.faultOfArrival ..

/-- All that a consumed floor telegram does before the owed notices are told (R7, R21). -/
theorem Inner.consume (h : Inner s t) (x : Telegram) (r : StationRecord) : Inner s (t.consume x r) := by
  unfold State.consume
  simp only
  split
  · exact (h.renewSilence r).owned ..
  · split
    · exact (h.joinStation r).announceDrive ..
    · exact h
  · exact (h.joinStation r).owned ..

/-! ### The completions -/

theorem Inner.reportSent (h : Inner s t) (o : Order) : Inner s (t.reportSent o) := by
  unfold State.reportSent
  split
  · exact h.walk ((Walks.refl t).pieceSent ..)
  · exact h.walk ((Walks.refl t).stepSent ..)
  · exact h.resetSent ..
  · exact h

theorem Inner.floorReport (h : Inner s t) (x : FloorSending) : Inner s (t.floorReport x) := by
  unfold State.floorReport
  split
  · exact h.reportSent _
  · exact h
  · exact h

/-! ### Commits -/

theorem Inner.leaveUse (h : Inner s t) (f : FrameNo) : Inner s (t.leaveUse f) := by
  have k := ((((h.unsetReference f).clearSpindles f).clearCarriages f).walk (((Walks.refl _).dropDoff f).dropFrameCalls
    f)).setFrameItem f ⟨.absent, false⟩
  unfold State.leaveUse
  simp only
  split
  · exact k.walk ((Walks.refl _).cutSequence ..)
  · exact k

theorem Inner.clearFrame (h : Inner s t) (f : FrameNo) : Inner s (t.clearFrame f) :=
  ((((h.unsetReference f).clearSpindles f).clearCarriages f).walk
    (((Walks.refl _).clearBays f).dropDoff f)).rebuildStations

theorem Inner.refillBays (h : Inner s t) (f : FrameNo) : Inner s (t.refillBays f) := by
  have k := (h.unsetReference f).walk (((Walks.refl _).clearBays f).trans
    (Walks.fold (fun u b => (Walks.refl u).recallBay b) (frameBays f) _))
  unfold State.refillBays
  simp only
  split
  · exact k
  · exact k.walk (Walks.refl _).trainArbiter

end

end Sys2Proof.Machine
end

