-- ==== Sys2Proof/Tests/Slice0.lean ====
section
/-! SUPPORT. Tests: ill-formed commands that WellFormed refuses, the line codes of 11.1, single steps on
small states, and for each statement that has hypotheses a concrete case that meets them together. -/

open Sys2Proof Sys2Proof.Machine

namespace Slice0

set_option Elab.async false

/-! ### Small states -/

/-- What a step comes to; the state after reset if it stops. -/
def after (o : Host.Outcome State Fault Refusal) : State :=
  match o with
  | .next t => t
  | _ => State.reset

def row : RowTable :=
  { RowTable.default with framesInUse := 1, trainAddress := 50, resetWait := 11, silenceDrive := 5 }

def record : FrameRecord :=
  ⟨1, 2, 3, 4, 5, 48, 500, 100, 1000, 200, 100, 1, 2, 3, 5, 1, 100, 50, 0⟩

/-- A WAIT of 0.7 s, a COMMAND to the carriage of side A, and an AWAIT. -/
def waitStep : StepWord := ⟨2, 0, 0, 0, 0, 7⟩
def commandStep : StepWord := ⟨1, 0, 4, 0x0900, 5, 7⟩
def awaitStep : StepWord := ⟨3, 0, 0, 1, 0, 7⟩

def stations : List StationRecord :=
  [⟨1, .drive, some 0, none, .active, .clear, 0, .running 50, none⟩,
    ⟨2, .strip, some 0, some .a, .active, .clear, 0, .running 50, none⟩,
    ⟨3, .strip, some 0, some .b, .silent, .clear, 0, .stopped, none⟩,
    ⟨4, .carriage, some 0, some .a, .active, .clear, 0, .running 50, none⟩,
    ⟨5, .carriage, some 0, some .b, .resetting, .clear, 0, .running 110, some 3⟩,
    ⟨50, .train, none, none, .disabled, .clear, 0, .stopped, none⟩]

/-- One frame in use, its stations in every link state but ABSENT, nothing queued or told. -/
def one : State :=
  { State.reset with
    li := { State.reset.li with millTx := none }
    st := stations
    fm := #v[⟨.spinning, true⟩, ⟨.absent, false⟩, ⟨.absent, false⟩, ⟨.absent, false⟩]
    mu := { State.reset.mu with
      row := row, frames := #v[record, .default, .default, .default], latched := 0, told := 0 } }

def withFrame (s : State) (x : FrameState) : State := s.setFrameItem 0 ⟨x, false⟩
def withStage (s : State) (bs : List Byte) : State := s.setMu { s.mu with stage := bs }
def withRow (s : State) (r : RowTable) : State := s.setMu { s.mu with row := r }
def withStep (s : State) (w : StepWord) : State :=
  s.setSe { s.se with steps := putNat s.se.steps 0 w }
def withReplies (s : State) (n : Nat) : State :=
  s.setLi { s.li with millReplies := List.replicate n resetNotice }
def withSending (s : State) (x : FloorSending) : State := s.setLi { s.li with floorTx := some x }
def saving (s : State) : State := s.setMu { s.mu with save := .inFlight }

/-- A channel whose sequence of cause MANAGEMENT stands at step 0 in a phase. -/
def standing (p : StepPhase) (t : Timer) : Channel :=
  { Channel.fresh with
    state := .running, cause := some .management, address := some 0, phase := some p, timer := t }

/-- A carriage that holds spindle 7 in a phase. -/
def holding (p : SlotPhase) : CarriageRecord :=
  { CarriageRecord.fresh with inHand := some ⟨7, 0, p, 2⟩, piecing := .running 500 }

def headF (a : Byte) : FloorHead := ⟨a, .fill⟩
def headM : MillHead := ⟨9, 8, 7, .fill⟩
def passing : Telegram := ⟨.pass, 1, 2, 3, [4]⟩
def fullBody : List Byte := List.replicate 60 1
def yarn0 : List Byte := [0, 0, 0, 0, 0, 0, 0]

/-! ### Ill-formed commands are refused -/

theorem test_wf_long_floor_body : (Instr.sectionReport (headF 2) (List.replicate 61 0)).wf = false := by decide
theorem test_wf_long_mill_body : (Instr.stage headM (List.replicate 60 0)).wf = false := by decide
theorem test_wf_long_read_body : (Instr.readFrame headM (List.replicate 59 0)).wf = false := by decide
theorem test_wf_edge_bodies : (Instr.stage headM (List.replicate 59 0)).wf = true ∧
    (Instr.readFrame headM (List.replicate 58 0)).wf = true ∧
    (Instr.deliveryReport (headF 1) fullBody).wf = true := by decide
theorem test_wf_no_discard : (Instr.telegramDiscarded .floor [fillGroup]).wf = false := by decide
theorem test_wf_discard :
    (Instr.telegramDiscarded .floor (markGroups (.start .station) ++ [fillGroup])).wf = true := by decide
theorem test_wf_floor_forwards_no_part : (Instr.floorThroughTraffic ⟨.part, 255, 1, 0, []⟩ .fill).wf = false := by
  decide
theorem test_wf_floor_ignores_no_pass : (Instr.floorLocalTraffic (.telegram passing .fill)).wf = false := by decide
theorem test_wf_mill_station_address : (Instr.notPassable ⟨.station, 255, 1, 0, []⟩ .fill).wf = false ∧
    (Instr.notPassable ⟨.station, 0, 1, 0, []⟩ .fill).wf = false := by decide
theorem test_wf_mill_forwards_no_part : (Instr.millThroughTraffic ⟨.part, 1, 1, 0, []⟩ .fill).wf = false := by decide
theorem test_wf_bad_kind_is_no_row : (Instr.badKind ⟨.part, 1, 1, 0x41, [7]⟩ .fill).wf = false ∧
    (Instr.badKind ⟨.part, 1, 1, 0x40, [7, 15, 0, 0, 0, 0, 0]⟩ .fill).wf = true := by decide
theorem test_wf_station_address : (Instr.silenceTimerExpiry 0).wf = false ∧
    (Instr.resetWaitExpiry 255).wf = false := by decide

/-! ### The line (11.1) -/

/-- The 16 data codes, the fill group and the mark groups are told apart, and 11 codes are invalid. -/
theorem test_code_groups : ((List.range 32).filter fun n => classify (BitVec.ofNat 5 n) = .invalid).length = 11 ∧
    (∀ n : Fin 16, classify (dataGroup (BitVec.ofFin n)) = .data (BitVec.ofFin n)) := by decide

/-- The check of the nine characters 1 to 9 under R4's polynomial and start value. -/
theorem test_check_value : checkOf [0x31, 0x32, 0x33, 0x34, 0x35, 0x36, 0x37, 0x38, 0x39] = 0x29B1 := by
  decide +kernel

/-- A RESET order to station 5 as it stands on the line, written out from 11.1. -/
theorem test_reset_order_groups : (floorLine (some (.order ⟨0, 5, .reset⟩ true))).take 12 =
    [0x18, 0x11, 0x18, 0x07, 0x1E, 0x0B, 0x1D, 0x1D, 0x14, 0x15, 0x1E, 0x1E] := by decide +kernel

theorem test_no_word_spells_a_command : decodeTableWord 8 3 = none := by decide

/-! ### Single steps -/

/-- The state that a command leaves in `one`, and what the mill transmitter then sends. -/
def ran (c : Instr) : State := after (exec c one)
def reply (s : State) : Option (Byte × Byte × Byte × List Byte) :=
  match s.li.millTx with
  | some (.reply t) => some (t.dst, t.src, t.kind, t.body)
  | _ => none

/-- The row table's bytes, written out from 11.3. -/
theorem test_read_row_table : reply (ran (.readRowTable headM [0, 0, 0, 0, 0])) =
    some (8, 255, 0x60, [7, 1, 1, 50, 0, 0, 0, 0xFF, 5, 255, 255, 255, 11, 0, 0, 0, 0]) := by decide +kernel

/-- A station record's bytes, written out from 11.3: the carriage of side B in RESETTING. -/
theorem test_read_station : (reply (ran (.readStationRecord headM [5, 0, 0, 0, 0]))).map (fun x => x.2.2.1) =
    some 0x60 ∧ reply (ran (.readStationRecord headM [6, 0, 0, 0, 0])) = some (8, 255, 0x62, [7, 0x40, 7, 0]) := by
  decide +kernel

theorem test_read_bad_item : reply (ran (.badKind ⟨.part, 9, 8, 0x40, [7, 0, 0, 0, 0, 0, 0]⟩ .fill)) =
    some (8, 255, 0x62, [7, 0x40, 3, 0]) := by decide +kernel

theorem test_bad_kind : reply (ran (.badKind ⟨.part, 9, 8, 0x50, []⟩ .fill)) =
    some (8, 255, 0x62, [0, 0x50, 1, 0]) := by decide +kernel

theorem test_bad_length : reply (ran (.doffNow headM [])) = some (8, 255, 0x62, [7, 0x49, 2, 0]) := by decide +kernel

theorem test_stage : (ran (.stage headM [0, 1, 2, 3])).mu.stage = [1, 2, 3] ∧
    reply (ran (.stage headM [0, 1, 2, 3])) = some (8, 255, 0x61, [7, 0x42]) ∧
    reply (ran (.stage headM [1, 1])) = some (8, 255, 0x62, [7, 0x42, 4, 0]) := by decide +kernel

theorem test_not_passable : reply (ran (.notPassable ⟨.station, 4, 8, 0x20, [0, 7, 1]⟩ .fill)) =
    some (8, 255, 0x62, [0, 0x20, 17, 4]) := by decide +kernel

theorem test_mill_traffic : (ran (.millThroughTraffic ⟨.station, 50, 8, 3, []⟩ .fill)).li.floorTx =
    some (.forward (.telegram ⟨.station, 50, 8, 3, []⟩)) := by decide +kernel

theorem test_floor_traffic : (ran (.floorThroughTraffic passing .fill)).li.millTx = some (.forward passing) ∧
    (ran (.floorThroughTraffic passing .fill)).li.floorRecord = ⟨1, 0, 0⟩ := by decide +kernel

theorem test_discard : (ran (.telegramDiscarded .mill (markGroups (.start .part) ++ [0x1E, 0x00]))).li.millRecord =
    ⟨0, 1, 0⟩ := by decide +kernel

/-- A telegram whose row names a source that is not configured is forwarded all the same (R6). -/
theorem test_report_of_a_stranger : (ran (.sectionReport (headF 77) yarn0)).li.millTx =
    some (.forward ⟨.station, 255, 77, 0x10, yarn0⟩) := by decide +kernel

/-- A section of YARN: 24 spindles RUNNING. -/
theorem test_section : (ran (.sectionReport (headF 2) yarn0)).runningCount 0 = 24 ∧
    ((ran (.sectionReport (headF 2) yarn0)).spindle 0 23).state = .running ∧
    ((ran (.sectionReport (headF 2) yarn0)).spindle 0 24).state = .unseen := by decide +kernel

/-- The first report of a drive sets the reference alone (R40); a second one of 3 pulses of 500 um delivers
1 mm and carries 500 um (R41 to R44). -/
theorem test_delivery : (one.integrate 0 ⟨258, .running, 9⟩).di.get 0 = ⟨0, 0, some 258, some 9⟩ ∧
    ((one.setDelivery 0 ⟨0, 0, some 0xFFFF, none⟩).integrate 0 ⟨2, .running, 9⟩).di.get 0 =
      ⟨1, 500, some 2, some 9⟩ := by decide +kernel

theorem test_unknown_kind : ((ran (.unknownKind (headF 1) 0x55 [])).stationAt 1).map (fun r => (r.errorCount, r.flags.errors)) =
    some (1, true) ∧ (ran (.unknownKind (headF 1) 0x55 [])).mu.latched = 1 := by decide +kernel

theorem test_reset_report : ((ran (.resetReport (headF 5) [])).stationAt 5).map (fun r => (r.link, r.flags.resetDone)) =
    some (.active, true) := by decide +kernel

theorem test_station_reset : (ran (.stationReset headM [50])).li.floorTx = some (.order ⟨0, 50, .reset⟩ true) ∧
    ((ran (.stationReset headM [50])).stationAt 50).map (·.link) = some .resetting := by decide +kernel

theorem test_station_disable : ((ran (.stationDisable headM [3])).stationAt 3).map (·.link) = some .disabled := by
  decide +kernel

theorem test_clear_changes : reply (ran (.clearChanges headM [16, 0])) = some (8, 255, 0x62, [7, 0x44, 3, 0]) := by
  decide +kernel

theorem test_silence : ((ran (.silenceTimerExpiry 2)).stationAt 2).map (fun r => (r.link, r.timer)) =
    some (.silent, .stopped) := by decide +kernel

theorem test_reset_wait : ((ran (.resetWaitExpiry 5)).stationAt 5).map (·.link) = some .absent := by decide +kernel

/-- DOFF NOW with a permit free: the frame is DOFFING and its WAIT of 0.7 s runs. -/
theorem test_doff_now : (after (exec (.doffNow headM [0]) (withStep one waitStep))).frameState 0 = .doffing ∧
    ((after (exec (.doffNow headM [0]) (withStep one waitStep))).channel 0).timer = .running 70 := by decide +kernel

theorem test_start_sequence : ((after (exec (.startSequence headM [4, 0, 0]) (withStep one waitStep))).channel 4).phase =
    some .timing := by decide +kernel

/-- A sequence that runs into words of END ends NORMAL at once, and its channel is IDLE. -/
theorem test_start_of_end : ((ran (.startSequence headM [4, 0, 0])).channel 4).state = .idle ∧
    ((ran (.startSequence headM [4, 0, 0])).channel 4).ending.map (·.condition) = some .normal := by decide +kernel

theorem test_halt : ((after (exec (.haltSequence headM [0])
      (one.setChannel 0 (standing .timing (.running 50))))).channel 0).ending.map (fun e => (e.condition, e.residual)) =
    some (.halted, some 5) := by decide +kernel

theorem test_commit_frame : (after (exec (.commitFrame headM [1, 0, 0, 0])
    (withStage one (frameRecordBytes record)))).mu.frames.get 1 = record := by decide +kernel

/-- A commit that gives a frame in use two stations of one address is refused DUPLICATE ADDRESS. -/
theorem test_duplicate_address : reply (after (exec (.commitFrame headM [0, 0, 0, 0])
    (withStage (withFrame one .standing) (frameRecordBytes { record with drive := 5 })))) =
      some (8, 255, 0x62, [7, 0x43, 15, 0]) := by decide +kernel

theorem test_shift_close : (ran (.shiftClose headM [])).sc.current.number = 2 ∧
    (ran (.shiftClose headM [])).sc.history.length = 1 := by decide +kernel

theorem test_save : (ran (.saveSettings headM [])).mu.save = .inFlight ∧
    (after (exec .saveCompletion (saving one))).mu.save = .complete := by decide +kernel

theorem test_second : (ran .secondTimerExpiry).sc.current.openSeconds = 1 ∧
    ((ran .secondTimerExpiry).sc.current.entries.get 0).spinSeconds = 1 := by decide +kernel

theorem test_line_reset : (ran .lineReset).li.floorTx = some (.forward .lineReset) ∧
    (ran .lineReset).st.map (·.link) = List.replicate 6 .absent := by decide +kernel

theorem test_part_reset : (ran (.partReset headM [])).li.floorTx = none ∧
    (ran (.partReset headM [])).li.millTx = none ∧ (ran (.partReset headM [])).frameState 0 = .absent := by
  decide +kernel

theorem test_empty_queue : (after (step one)).st.map (·.timer) =
    [.running 49, .running 49, .stopped, .running 49, .running 109, .stopped] := by decide +kernel

/-! ### A case that meets the hypotheses of each statement

The first letters name the statement; a statement of several clauses has a case for each. -/

/-- EmptyQueueIsTime, ResetState. -/
theorem test_case_reset : State.reset.pending = [] ∧ State.reset.mu.store = .blank ∧
    State.reset.mu.save ≠ .inFlight := ⟨rfl, rfl, by decide⟩

/-- The invariants hold after reset and in `one`. -/
theorem test_case_invariants : one.withinCapacity = true ∧ one.tablesInRange = true ∧
    one.stationsMatch ∧ one.ordersAllowed ∧ one.ordersNumbered ∧ one.doffLaw ∧ one.permitLaw := by
  decide +kernel

/-- The laws of orders that wait singly, of channels, of calls and of spindles, in `one`. -/
theorem test_case_order_singles : one.ordersSingle :=
  ⟨fun _ => Nat.zero_le 1, fun _ h => nomatch h⟩

theorem test_case_channel_law : one.channelLaw := by
  intro ch
  have h : one.channel ch = .fresh := by revert ch; decide +kernel
  have z : ∀ i, Channel.fresh.stack.get i ≤ 512 := by decide +kernel
  rw [h]
  exact ⟨by decide, by decide, by decide, by simp [Channel.fresh], z, by decide, by decide, by simp [Channel.fresh]⟩

theorem test_case_call_law : one.callLaw := by
  have h : ∀ b, one.bay b = ⟨0, .none, none⟩ := fun b => by
    rcases b with ⟨f, sd, i⟩
    revert f i
    cases sd <;> decide +kernel
  have n : one.rc.current = none := rfl
  refine ⟨List.nodup_nil, fun b => ?_, fun b => ?_, fun b => ?_, by decide +kernel, fun c hc => (nomatch hc)⟩
  · rw [h b]; exact ⟨fun x => (nomatch x), fun x => x.elim (fun y => (nomatch y)) fun y => (nomatch y)⟩
  · rw [h b, n]; exact ⟨fun x => (nomatch x), fun x => (nomatch x)⟩
  · rw [h b]; exact fun x => absurd rfl x

theorem test_case_spindle_law : one.spindleLaw := by
  have e : ∀ f, one.spt.get f = .fresh := fun f => Vector.getElem_replicate ..
  have h : ∀ f p, one.spindle f p = .fresh := fun f p => by
    rw [State.spindle, e, FrameSpindles.fresh, Vector.toList_replicate, List.getD_eq_getElem?_getD,
      List.getElem?_replicate]
    split <;> rfl
  have c : ∀ f sd, one.carriage f sd = .fresh := fun f sd => by
    revert f
    cases sd <;> decide +kernel
  refine ⟨fun f => ?_, fun f p _ => h f p, fun f sd => ?_, fun f sd p => ?_, fun f sd p => ?_⟩
  · rw [State.runningCount, e, FrameSpindles.fresh, Vector.toList_replicate, List.filter_replicate_of_neg] <;> simp [SpindleRecord.fresh]
  · rw [c]; exact List.Pairwise.nil
  · rw [c, h]; exact ⟨fun x => (nomatch x), fun x => (nomatch x.2)⟩
  · rw [c, h]; exact ⟨fun x => x.elim fun _ y => (nomatch y.1), fun x => (nomatch x.2)⟩

/-- What breaks them: a channel RUNNING with no step, a permit held by no frame, a listed bay of no class. -/
theorem test_case_laws_broken :
    ¬ (one.setChannel 0 { Channel.fresh with state := .running }).channelLaw ∧
      ¬ ({ one with ds := { one.ds with permits := 1 } } : State).permitLaw ∧
      ¬ ({ one with rc := { one.rc with calls := [⟨0, .a, 0⟩] } } : State).callLaw := by
  refine ⟨fun h => ?_, by decide +kernel, fun h => ?_⟩
  · exact absurd ((h 0).1.mp rfl) (by decide +kernel)
  · exact absurd ((h.2.1 ⟨0, .a, 0⟩).mp (by decide +kernel)) (by decide +kernel)

/-- The invariants with a step that is a next state, and each store at its capacity. -/
theorem test_case_full_stores :
    (withStage (withReplies one 8) (List.replicate 240 0)).withinCapacity = true ∧
      ¬ (withReplies one 9).withinCapacity = true := by decide +kernel

theorem test_case_step_is_next : ∃ t, step one = .next t := ⟨_, rfl⟩

/-- The order law with an order that waits, and an order that breaks it. -/
theorem test_case_order_law :
    ({ one with li := { one.li with floorOrders := [⟨3, 5, .reset⟩] } } : State).ordersAllowed ∧
      ¬ ({ one with li := { one.li with floorOrders := [⟨3, 4, .reset⟩] } } : State).ordersAllowed := by
  decide +kernel

/-- The doff law with a request, and with one of a frame that is DOFFING. -/
theorem test_case_doff_law : ({ one with ds := { one.ds with queue := [0] } } : State).doffLaw ∧
    ¬ ({ withFrame one .doffing with ds := { one.ds with queue := [0] } } : State).doffLaw := by
  decide +kernel

/-- SentTelegramIsReceived at both ends of a body's length. -/
theorem test_case_bodies : fullBody.length = 60 ∧ ([] : List Byte).length ≤ 60 := by decide

/-- A receiver in each case of DiscardCases: a length byte of 61, reception cut short, and both check
bytes complete. -/
def inHeader : Receiver := ⟨.header, .part, [1, 2, 3], some 3, []⟩
def inCheck : Receiver := ⟨.check, .part, [1, 2, 3, 0, 9, 9], none, []⟩

theorem test_case_discards :
    ((withReplies one 0).setReceiver .floor inHeader).receiver .floor = inHeader ∧ inHeader.run = [] ∧
      inHeader.state = .header ∧ inHeader.bytes.length = 3 ∧ inHeader.high = some 3 ∧
      60 < ((3#4) ++ (0xD#4)).toNat ∧ inHeader.complete = false ∧ inCheck.complete = true ∧
      inCheck.state ≠ .idle ∧ inCheck.run = [] ∧ classify 0x19 = .invalid ∧ one.receiver .floor = .idle ∧
      discards (markGroups (.start .pass) ++ [fillGroup]) = true := by decide +kernel

/-- ArrivalIsWhole at both ports, the body at its longest, the mark received already or not. -/
theorem test_case_arrivals : one.ready .floor ⟨.pass, 1, 2, 3, fullBody⟩ ∧ one.ready .mill passing ∧
    (one.setReceiver .mill (.begun .pass)).ready .mill passing ∧
    arrivalOf (.floorThroughTraffic passing .fill) = some (.floor, passing, .fill) ∧
    arrivalOf (.millThroughTraffic passing .fill) = some (.mill, passing, .fill) := by decide +kernel

/-- FloorTraffic: traffic of a station that is not configured, of one that is DISABLED, and local traffic. -/
theorem test_case_floor_traffic : one.stationAt 77 = none ∧
    (one.stationAt 50).map (·.link) = some .disabled ∧ one.ready .floor ⟨.station, 255, 50, 3, []⟩ ∧
    one.ready .floor ⟨.station, 254, 1, 3, []⟩ ∧ one.ready .floor ⟨.part, 255, 1, 3, []⟩ ∧
    one.receiver .floor = .idle ∧ one.li.millForward.length < 8 := by decide +kernel

/-- MillThroughTraffic: a station that is not configured, and one that is DISABLED; NotPassable: one that
is ACTIVE, and one that is SILENT. -/
theorem test_case_mill_traffic : one.ready .mill ⟨.station, 77, 8, 3, []⟩ ∧ one.stationAt 77 = none ∧
    one.ready .mill ⟨.station, 50, 8, 3, []⟩ ∧ (one.stationAt 50).map (·.link) = some .disabled ∧
    one.ready .mill ⟨.station, 4, 8, 3, []⟩ ∧ (one.stationAt 4).map (·.link) = some .active ∧
    one.ready .mill ⟨.station, 3, 8, 3, []⟩ ∧ (one.stationAt 3).map (·.link) = some .silent := by
  decide +kernel

/-- FullReplyQueueDiscards: eight replies wait. -/
theorem test_case_full_reply_queue : (withReplies one 8).replyRoom = false ∧ (withReplies one 7).replyRoom = true ∧
    arrivalOf (.shiftClose headM []) = some (.mill, millTelegram headM kindShiftClose [], .fill) ∧
    (millTelegram headM kindShiftClose []).mark = .part ∧
    (withReplies one 8).ready .mill (millTelegram headM kindShiftClose []) := by decide +kernel

/-- WrongTelegramIsRefused: no kind, a wrong length, no item, no target. -/
theorem test_case_wrong_telegrams :
    arrivalOf (.badKind ⟨.part, 1, 8, 0x50, []⟩ .fill) = some (.mill, ⟨.part, 1, 8, 0x50, []⟩, .fill) ∧
      mgmtKind? 0x50 = none ∧ mgmtKind? 0x3F = none ∧ one.takes ⟨.part, 1, 8, 0x50, []⟩ ∧
      mgmtLengthOk .shiftClose 2 = false ∧ mgmtLengthOk .stage 2 = false ∧ mgmtLengthOk .stage 59 = false ∧
      readItemHasRow 0 = false ∧ readItemHasRow 15 = false ∧ commitTargetHasRow 3 = false := by
  decide +kernel

def park : Order := ⟨3, 4, .parkOrder⟩
def stepOrder : Order := ⟨2, 4, .stepCommand 0 9 0 none⟩
def pieceOrder : Order := ⟨2, 4, .pieceOrder 0 .a 7 1⟩
def resetOrder : Order := ⟨3, 5, .reset⟩
def withQueues (s : State) : State :=
  s.setLi { s.li with
    floorOrders := [park], floorForward := [.telegram passing], millForward := [passing] }

/-- TelegramSent and QueuesAndChoice: what is sent, and what waits. -/
theorem test_case_transmitters : (withSending one (.forward .lineReset)).li.floorTx = some (.forward .lineReset) ∧
    (withSending (withQueues one) (.order park true)).li.floorOrders = park :: [] ∧
    (withQueues one).li.floorTx = none ∧ (withQueues one).li.millForward = passing :: [] ∧
    State.reset.li.millTx = some (.reply resetNotice) ∧ (withReplies one 1).li.millReplies = resetNotice :: [] ∧
    one.li.floorTx = none ∧ one.li.millTx = none ∧
    (one.stationAt 4).map (fun r => orderAllowed .parkOrder r.link) = some true ∧
    (one.stationAt 5).map (fun r => orderAllowed .parkOrder r.link) = some false := by decide +kernel

/-- A part whose floor order queue holds 32 orders, here of one station, behind one that is being sent. -/
def crowded : State := (withSending one (.order park true)).setLi
  { (withSending one (.order park true)).li with floorOrders := List.replicate 32 stepOrder }

/-- QueuesAndChoice, StartSequence, CarriageReport, StationResetAndDisable: an order that finds a place,
one that finds none, and one to which another gives way. -/
theorem test_case_order_room : one.orderEnters 4 .parkOrder = true ∧ crowded.orderEnters 4 .parkOrder = false ∧
    (crowded.setLi { crowded.li with floorOrders := List.replicate 31 stepOrder ++ [park] }).orderEnters 4
      (.pieceOrder 0 .a 7 1) = true ∧
    crowded.withinCapacity = true ∧
    ((State.walkSteps 17 0 0 false (withStep crowded commandStep)).channel 0).ending.map (·.condition) =
      some .stationLost ∧
    ((crowded.setCarriage 0 .a { CarriageRecord.fresh with ready := true, list := [⟨7, false⟩] }).evalIssue 0
      .a).carriage 0 .a = { CarriageRecord.fresh with list := [⟨7, false⟩] } ∧
    (after (exec (.stationReset headM [3]) crowded)).li.floorOrders = crowded.li.floorOrders := by decide +kernel

/-- PieceOrderSent and StepAndResetCompletions: the order is the one that is waited for, or is not. -/
theorem test_case_completions :
    ((one.setCarriage 0 .a (holding .waiting)).carriage 0 .a).inHand = some ⟨7, 0, .waiting, 2⟩ ∧
      ((one.setCarriage 0 .a (holding .sent)).carriage 0 .a).inHand = some ⟨7, 0, .sent, 2⟩ ∧
      (withSending one (.order pieceOrder true)).li.floorTx =
        some (.order ⟨2, 4, .pieceOrder 0 .a 7 1⟩ true) ∧
      ((one.setChannel 0 { standing .waiting .stopped with order := some 2 }).channel 0).order = some 2 ∧
      (one.channel 0).phase = none ∧ (one.stationAt 5).map (·.resetOrder) = some (some 3) := by
  decide +kernel

/-- NoticeRule: something owed with the timer expired, with it running, and with no room. -/
def owing (s : State) (t : Timer) : State := s.setMu { s.mu with latched := 1, moderation := t }

theorem test_case_notices : (owing one .stopped).mu.latched &&& (owing one .stopped).mu.row.enables &&&
      ~~~(owing one .stopped).mu.told ≠ 0 ∧ (owing one .stopped).replyRoom = true ∧
    (owing one (.running 5)).mu.moderation = .running 5 ∧ (withReplies (owing one .stopped) 8).replyRoom = false ∧
    one.mu.latched &&& one.mu.row.enables &&& ~~~one.mu.told = 0 := by decide +kernel

/-- PowerOnLoad and ResetsEndEverySequence: an intact store, a torn one, and one out of range. -/
def storeOf (r : FrameRecord) : SettingsStore :=
  ⟨.intact row, #v[.intact r, .torn, .torn, .torn], Vector.replicate 512 (.intact waitStep)⟩

theorem test_case_stores : (storeOf record).row = .intact row ∧ rowInRange row = true ∧
    (storeOf record).frames.get 0 = .intact record ∧ frameInRange record = true ∧
    frameInRange .default = false ∧ rowInRange { row with framesInUse := 5 } = false ∧
    rowInRange { row with framesInUse := 4 } = true ∧ (storeOf record).frames.get 3 = .torn ∧
    (storeOf record).words.get 511 = .intact waitStep ∧ SettingsStore.blank.words.get 0 = .torn := by
  decide +kernel

/-- The line resets: nothing in reception, or a telegram that is not complete; each sending. -/
theorem test_case_line_reset : one.li.millRx.complete = false ∧
    (one.setReceiver .mill inHeader).li.millRx.complete = false ∧
    one.takes (millTelegram headM kindPartReset []) ∧ headM.ends ≠ .mark .lineReset ∧
    (withSending one (.order park true)).li.floorTx = some (.order park true) ∧
    (withSending one (.forward .lineReset)).li.floorTx = some (.forward .lineReset) ∧
    (saving one).mu.save = .inFlight ∧ one.mu.save ≠ .inFlight ∧
    (saving one).takes (millTelegram headM kindPartReset []) ∧
    (after (exec .lineReset (saving one))).mu.save = .abandoned := by decide +kernel

/-- The READ statements: the fields at the ends of their ranges, taken by `one`. -/
theorem test_case_reads : (∀ i : Fin 15, one.takes (readTelegram headM (BitVec.ofNat 8 i.val) [0, 0, 0, 0, 0])) ∧
    (byteAt [3, 1, 1, 0xFF, 7] 0).toNat = (3 : FrameNo).val ∧ byteAt [3, 1, 1, 0xFF, 7] 1 = 1 ∧
    4 ≤ (byteAt [4, 0, 0, 0, 0] 0).toNat ∧ 2 ≤ (byteAt [0, 2, 0, 0, 0] 1).toNat ∧
    (halfAt [0, 0, 1, 0xFF, 1] 2).toNat = 511 ∧ (byteAt [0, 1, 0, 0, 0] 1).toNat = sideNo .b ∧
    (byteAt [4, 0, 0, 0, 0] 0).toNat = (4 : ChannelNo).val ∧ 5 ≤ (byteAt [5, 0, 0, 0, 0] 0).toNat ∧
    one.stationAt 6 = none ∧ (one.stationAt 50).isSome ∧ 4 ≤ (byteAt [0, 4, 0, 0, 0] 1).toNat := by
  decide +kernel

/-- StageCommands: data of 1 and of 56 bytes, none, and 57. -/
theorem test_case_stage : one.takes (millTelegram headM kindStageClear []) ∧
    one.takes (millTelegram headM kindStage (0 :: [1])) ∧
    one.takes (millTelegram headM kindStage (0 :: List.replicate 56 1)) ∧
    one.takes (millTelegram headM kindStage [0]) ∧ ([0] : List Byte).length < 2 ∧
    one.takes (millTelegram headM kindStage (List.replicate 58 1)) ∧
    57 < (List.replicate 58 (1 : Byte)).length := by decide +kernel

/-- The one-field commands, taken by `one` and by a part whose reply queue has one place left. -/
theorem test_case_commands : (∀ k : Fin 16, one.takes (millTelegram headM (BitVec.ofNat 8 (0x40 + k.val)) [1])) ∧
    (withReplies one 7).takes (millTelegram headM kindClearChanges [15, 0]) ∧
    one.takes (millTelegram headM kindAckNotices [255]) ∧
    one.takes (millTelegram headM kindSpindleRelease [0, 0, 95]) ∧
    one.takes (millTelegram headM kindStartSequence [4, 1, 0xFF]) := by decide +kernel

/-- CommitRefused: the store busy, a stage short by one byte, a value out of range, a channel RUNNING. -/
theorem test_case_commit_refused : (saving one).mu.save = .inFlight ∧
    one.takes (commitTelegram headM 0 [0, 0, 0, 0]) ∧ one.takes (commitTelegram headM 1 [3, 0, 0, 0]) ∧
    one.takes (commitTelegram headM 2 [0, 0, 0, 30]) ∧
    (withStage one (List.replicate 15 0)).mu.stage.length ≠ 16 ∧
    (withStage one (List.replicate 16 0)).mu.stage.length = 16 ∧
    rowInRange (rowTableOf (List.replicate 16 0)) = false ∧
    (withStage one (List.replicate 32 0)).mu.stage.length = 32 ∧
    frameInRange (frameRecordOf (List.replicate 32 0)) = false ∧
    4 ≤ (byteAt [4, 0, 0, 0] 0).toNat ∧ (byteAt [3, 0, 0, 0] 0).toNat < 4 ∧
    (halfAt [0, 1, 0xE2, 30] 1).toNat + (byteAt [0, 1, 0xE2, 30] 3).toNat = 512 ∧
    512 < (halfAt [0, 1, 0xE3, 30] 1).toNat + (byteAt [0, 1, 0xE3, 30] 3).toNat ∧
    (withStage one (List.replicate 240 0)).mu.stage.length = 8 * 30 ∧
    ((one.setChannel 4 (standing .timing (.running 9))).channel 4).state = .running := by decide +kernel

/-- What a ROW commit and a FRAME commit of staged bytes are refused with in a state. -/
def rowReason (s : State) (bs : List Byte) : Option Byte :=
  (reply (after (exec (.commitRow headM [0, 0, 0, 0]) (withStage s bs)))).map fun x => byteAt x.2.2.2 2
def frameReason (s : State) (f : Byte) (bs : List Byte) : Option Byte :=
  (reply (after (exec (.commitFrame headM [f, 0, 0, 0]) (withStage s bs)))).map fun x => byteAt x.2.2.2 2

/-- A part whose frame 0 has a current bay. -/
def serving (marked : Bool) : State := { one with rc := { one.rc with current := some ⟨⟨0, .a, 0⟩, marked⟩ } }

/-- CommitRefused, ROW: a spare byte, a frame with no spindles, an address twice, a DOFFING and a served
frame that leave, and a limit below the permits. -/
theorem test_case_row_refused : rowReason one ((rowTableBytes row).set 13 1) = some 3 ∧
    rowReason one (rowTableBytes { row with framesInUse := 2 }) = some 3 ∧
    rowReason one (rowTableBytes { row with trainAddress := 1 }) = some 15 ∧
    rowReason (withFrame one .doffing) (rowTableBytes { row with framesInUse := 0 }) = some 13 ∧
    rowReason (serving true) (rowTableBytes { row with framesInUse := 0 }) = some 13 ∧
    rowReason { one with ds := { one.ds with permits := 2 } } (rowTableBytes row) = some 14 := by
  decide +kernel

/-- CommitRefused, FRAME: a spare byte, an address twice in the part and in a frame not in use, a geometry
field of a served frame, and of one that is SPINNING; one that is STANDING is committed. -/
theorem test_case_frame_refused : frameReason one 0 ((frameRecordBytes record).set 30 1) = some 3 ∧
    frameReason one 0 (frameRecordBytes { record with stripA := 1 }) = some 15 ∧
    frameReason one 1 (frameRecordBytes { record with stripA := 1 }) = some 15 ∧
    frameReason (serving true) 0 (frameRecordBytes { record with draft := 500 }) = some 13 ∧
    frameReason one 0 (frameRecordBytes { record with draft := 500 }) = some 12 ∧
    frameReason (withFrame one .standing) 0 (frameRecordBytes { record with draft := 500 }) = some 0 := by
  decide +kernel

/-- CommitRefused, STEPS: an address twice in the tables in force. -/
theorem test_case_steps_refused : (reply (after (exec (.commitSteps headM [0, 0, 0, 1])
    (withStage (withRow one { row with trainAddress := 1 }) (List.replicate 8 0))))).map
      (fun x => byteAt x.2.2.2 2) = some 15 ∧ one.addressTwice = false := by decide +kernel

/-- CommitRow: a table that passes every test and changes no frame in use, no train and no limit, and one
that takes the frame out of use. -/
theorem test_case_commit_row : one.stationsMatch ∧ one.unwatched ∧
    (∀ y ∈ (withStage one (rowTableBytes { row with errorLimit := 9 })).rowTests
      (rowTableOf (rowTableBytes { row with errorLimit := 9 })), y.1 = false) ∧
    (∀ y ∈ (withStage one (rowTableBytes { row with framesInUse := 0 })).rowTests
      (rowTableOf (rowTableBytes { row with framesInUse := 0 })), y.1 = false) := by decide +kernel

/-- FrameLeavesUse: no sequence on the frame's channel. -/
theorem test_case_leave_use : (one.channel (frameChannel 0)).state ≠ .running := by decide +kernel

/-- CommitFrame with a live field changed, with another geometry field, and with an address, in a part with
no sequence under way and no train free. -/
theorem test_case_commit_frame :
    (∀ r ∈ [{ record with parkTime := 9 }, { record with draft := 500 }, { record with drive := 9 }],
      ∀ y ∈ (withStage (withFrame one .standing) (frameRecordBytes r)).frameTests 0
        (frameRecordOf (frameRecordBytes r)), y.1 = false) ∧
      one.trainFree = false ∧ (∀ ch, (one.channel ch).phase = none ∧ (one.channel ch).state ≠ .running) ∧
      geometryChanged record { record with parkTime := 9 } = false ∧
      geometryChanged record { record with draft := 500 } = true ∧
      layoutChanged record { record with draft := 500 } = false ∧
      layoutChanged record { record with drive := 9 } = true ∧ (withFrame one .standing).stationsMatch ∧
      (withFrame one .standing).unwatched := by decide +kernel

/-- CommitSteps: one word at the last address, and thirty. -/
theorem test_case_commit_steps : one.unwatched ∧ one.addressTwice = false ∧
    ([50, 1, 2, 3, 4, 5] : List Byte).Nodup ∧ one.mu.row.trainAddress = 50 ∧
    allFrames.filter one.inUse = [0] ∧ one.mu.save ≠ .inFlight ∧
    (∀ ch, (one.channel ch).state ≠ .running) ∧ (halfAt [0, 1, 0xFF, 1] 1).toNat = 511 ∧
    (withStage one (List.replicate 8 0)).mu.stage.length = 8 * 1 ∧
    (withStage one (List.replicate 240 0)).mu.stage.length = 8 * 30 := by decide +kernel

/-- StationResetAndDisable: an address that holds no record, a station in each link state, and the orders
of a station that is RESETTING. -/
theorem test_case_station_commands : one.stationAt 6 = none ∧
    (stations.map fun r => (r.role, r.link)) = [(.drive, .active), (.strip, .active), (.strip, .silent),
      (.carriage, .active), (.carriage, .resetting), (.train, .disabled)] ∧
    (∀ r ∈ stations, one.stationAt r.address = some r) ∧
    (∀ o ∈ (withSending one (.order park true)).li.floorOrders, o.station = 3 → o.body = .reset) ∧
    (withSending one (.order park true)).li.floorTx ≠ none ∧ one.unwatched ∧
    (∀ r ∈ stations, one.takes (millTelegram headM kindStationReset [r.address])) ∧
    one.takes (millTelegram headM kindStationDisable [4]) ∧
    ((after (exec (.stationReset headM [4]) (withSending one (.order park true)))).li.floorOrders.map
      fun o => (o.station, o.body)) = [(4, .reset)] := by decide +kernel

/-- SpindleRelease: LOCKED or not, the last position and the first beyond it. -/
def locked (s : State) (p : Nat) : State := s.setSpindleState 0 p .locked

theorem test_case_release : one.inUse 0 = true ∧ one.inUse 1 = false ∧ 95 < 2 * one.perSide 0 ∧
    2 * one.perSide 0 ≤ 96 ∧ ((locked one 95).spindle 0 95).state = .locked ∧
    (one.spindle 0 95).state ≠ .locked ∧ (withFrame (locked one 95) .standing).frameState 0 ≠ .spinning ∧
    (withFrame (locked one 95) .standing).inService 0 .b = true := by decide +kernel

/-- DoffNow: each refusal, a permit that is not free, and one that is. -/
theorem test_case_doff_now : (withFrame one .absent).frameState 0 = .absent ∧
    (withFrame one .doffing).frameState 0 = .doffing ∧ one.frameState 0 = .spinning ∧
    (0 : FrameNo) ∈ ({ one with ds := { one.ds with queue := [0] } } : State).ds.queue ∧
    ((one.setChannel 0 { Channel.fresh with state := .ended }).channel (frameChannel 0)).state = .ended ∧
    one.mu.row.permitLimit.toNat ≤ ({ one with ds := { one.ds with permits := 1 } } : State).ds.permits ∧
    one.ds.permits < one.mu.row.permitLimit.toNat ∧ one.ds.queue = [] ∧ one.served 0 = false ∧
    (one.channel (frameChannel 0)).state = .idle ∧
    stepKind? ((withStep one waitStep).stepAt (one.record 0).doffStart.toNat) = some .wait ∧
    waitStep.limit ≠ 0 ∧ waitStep.bayFlag = false ∧ waitStep.note = false := by decide +kernel

/-- StartSequence: the channel and address at their ends, each channel state, a WAIT. -/
theorem test_case_start : 5 ≤ (5 : Byte).toNat ∧ (half 1 0xFF).toNat ≤ 511 ∧ 511 < (half 2 0).toNat ∧
    one.channelOutOfUse 3 = true ∧ one.channelOutOfUse 4 = false ∧
    ((one.setChannel 4 (standing .timing (.running 9))).channel 4).state = .running ∧
    ((one.setChannel 4 { Channel.fresh with state := .ended }).channel 4).state = .ended ∧
    (one.channel 4).state = .idle ∧ one.unwatched ∧
    stepKind? ((withStep one waitStep).stepAt 0) = some .wait := by decide +kernel

/-- A word of each kind whose begin checks pass on frame channel 0, the AWAIT's condition holding or not;
a RETURN has an address to pop. -/
def words : List StepWord :=
  [.endWord, commandStep, waitStep, { waitStep with limit := 0 }, awaitStep, { awaitStep with argument := 2 },
    ⟨4, 0, 0, 511, 0, 0⟩, ⟨5, 0, 0, 511, 0, 0⟩, ⟨6, 0, 0, 0, 0, 0⟩, ⟨7, 0, 0, 1, 0, 0⟩]

theorem test_case_step_kinds : words.map stepKind? = [some .endStep, some .command, some .wait, some .wait,
      some .await, some .await, some .jump, some .call, some .ret, some .mark] ∧
    (∀ w ∈ words, one.beginFailure 0 false w = none) ∧
    (one.targetStation 0 commandStep).map (·.address) = some 4 ∧ channelFrame 0 = some 0 ∧
    channelFrame 4 = none ∧ one.channelAwait 0 awaitStep = false ∧
    one.channelAwait 0 { awaitStep with argument := 2 } = true ∧
    (serving false).beginFailure 4 true ⟨7, 0, 0, 2, 0, 0⟩ = none ∧
    one.beginFailure 4 true ⟨7, 0, 0, 2, 0, 0⟩ = some .sequenceCheck ∧
    one.beginFailure 0 true ⟨4, 0, 0, 511, 0, 0⟩ = some .sequenceCheck := by decide +kernel

/-- A channel that walks a doff or an exchange. -/
def walking (c : StartCause) (p : StepPhase) (t : Timer) : Channel := { standing p t with cause := some c }

/-- HaltAndClearEnding, StepReportEnds and StepTimerExpiry: a doff and an exchange that end. -/
def doffing : State :=
  (withFrame { one with ds := { one.ds with permits := 1 } } .doffing).setChannel 0
    (walking .doff .sent (.running 70))
def exchanging (marked : Bool) : State :=
  { (serving marked).setChannel 4 (walking .exchange .sent (.running 70)) with
    st := stations.map fun r => { r with link := .active } }

theorem test_case_endings : (doffing.channel 0).cause = some .doff ∧ (doffing.channel 0).address = some 0 ∧
    (doffing.channel 0).state = .running ∧ doffing.ds.queue = [] ∧ doffing.rc.calls = [] ∧ doffing.unwatched ∧
    ((exchanging false).channel 4).cause = some .exchange ∧ (exchanging false).rc.calls = [] ∧
    (exchanging false).rc.current = some ⟨⟨0, .a, 0⟩, false⟩ ∧ (exchanging true).unwatched ∧
    ((exchanging true).stationAt 50).map stationChannel = some 4 ∧ target? 6 = some (.train, none) := by
  decide +kernel

/-- HaltAndClearEnding: a sequence with a timer and one without, an ENDED channel, and a call to serve. -/
def calling : State :=
  { (one.setChannel 4 { Channel.fresh with state := .ended }) with
    st := [⟨50, .train, none, none, .active, .clear, 0, .running 9, none⟩]
    rc := { one.rc with bays := putAt one.rc.bays 0 ⟨0, .urgent, some 1⟩, calls := [⟨0, .a, 0⟩] } }

theorem test_case_halt_and_clear :
    (one.setChannel 0 (standing .timing (.running 50))).channel 0 = standing .timing (.running (10 * 5)) ∧
      (one.setChannel 0 (standing .waiting .stopped)).channel 0 = standing .waiting .stopped ∧
      (∀ g, frameChannel g ≠ 0 → (one.channel (frameChannel g)).phase ≠ some .watching) ∧
      (calling.channel 4).state = .ended ∧ calling.unwatched ∧ calling.mu.row.trainAddress ≠ 0 ∧
      isActive (calling.stationOf .train none none) = true ∧ calling.rc.calls = ⟨0, .a, 0⟩ :: [] ∧
      (calling.bay ⟨0, .a, 0⟩).cls = .urgent ∧ calling.frameState 0 ≠ .doffing ∧
      calling.mu.row.exchangeStart.toNat = 0 ∧ one.rc.calls = [] ∧ one.ds.queue = [] := by decide +kernel

/-- ShiftClose and SecondTimer. -/
theorem test_case_shift : one.takes (millTelegram headM kindShiftClose []) ∧ one.sc.second = .running 100 ∧
    one.inUse 0 = true ∧ one.inUse 3 = false := by decide +kernel

/-- ErrorsOfAStation: no limit, a limit above the count, and one that the rise reaches. -/
def driveRecord : StationRecord := ⟨1, .drive, some 0, none, .active, .clear, 0, .running 50, none⟩

theorem test_case_station_errors : one.ready .floor (floorTelegram (headF 1) 0x10 []) ∧
    one.stationAt 1 = some driveRecord ∧ kindAllowed 0x10 .drive = false ∧ one.mu.row.errorLimit = 0 ∧
    (satAdd driveRecord.errorCount 1).toNat < (withRow one { row with errorLimit := 2 }).mu.row.errorLimit.toNat ∧
    (withRow one { row with errorLimit := 1 }).mu.row.errorLimit ≠ 0 ∧
    (withRow one { row with errorLimit := 1 }).mu.row.errorLimit.toNat ≤ (satAdd driveRecord.errorCount 1).toNat := by
  decide +kernel

/-- ResetReport and LinkTimerExpiries: the link states each clause speaks of. -/
theorem test_case_link_events : (∀ a ∈ [(1 : Byte), 2, 3, 4, 5], one.ready .floor (floorTelegram (headF a) kindResetReport [])) ∧
    (one.stationAt 5).map (·.link) = some .resetting ∧ (one.stationAt 5).map (·.timer) = some (.running 110) ∧
    (one.stationAt 1).map (·.timer) = some (.running 50) ∧
    arrivalOf (.stepReport (headF 5) []) = some (.floor, floorTelegram (headF 5) kindStepReport [], .fill) ∧
    (floorTelegram (headF 5) kindStepReport []).dst = 255 ∧
    isResetReport (floorTelegram (headF 5) kindStepReport []) = false ∧
    isResetReport (floorTelegram (headF 5) kindResetReport [0]) = false := by decide +kernel

/-- ResetReport and DeliveryReport: a drive of each link state that joins, where no AWAIT waits and no doff
can be granted, its frame DOFFING or not. -/
def driveIn (l : LinkState) (x : FrameState) : State :=
  { withFrame one x with
    st := stations.map fun r => if r.address = 1 then { r with link := l } else r
    ds := { one.ds with permits := 1 } }

theorem test_case_joins : (∀ l ∈ [LinkState.active, .absent, .silent, .resetting], ∀ x ∈ [FrameState.doffing, .absent],
    (driveIn l x).stationAt 1 = some { driveRecord with link := l } ∧ (driveIn l x).unwatched ∧
      (driveIn l x).mu.row.permitLimit.toNat ≤ (driveIn l x).ds.permits ∧ (driveIn l x).frameState 0 = x ∧
      (driveIn l x).ready .floor (floorTelegram (headF 1) kindDeliveryReport [0, 100, 1, 0, 9]) ∧
      (driveIn l x).ready .floor (floorTelegram (headF 1) kindResetReport [])) := by decide +kernel

/-- The stations that leave: a carriage's hand as it stands when the carriage is lost. -/
def carriageRecord : StationRecord := ⟨4, .carriage, some 0, some .a, .active, .clear, 0, .running 50, none⟩
def handed (p : SlotPhase) (n : Nat) (os : List Order) : State :=
  (one.setCarriage 0 .a { holding p with list := (List.range n).map fun p => ⟨10 + p, false⟩ }).setLi
    { one.li with floorOrders := os }

/-- StationLeft: no step on a carriage, a drive, a strip and the train; a spindle SENT, one WAITING whose
order waits and one whose order is on the line; a list with room and a full one. -/
theorem test_case_departures : (handed .waiting 32 [pieceOrder, park]).noStepOn carriageRecord ∧
    (handed .waiting 32 [pieceOrder, park]).pieceWaits carriageRecord ⟨7, 0, .waiting, 2⟩ ∧
    ¬ (handed .waiting 32 [park]).pieceWaits carriageRecord ⟨7, 0, .waiting, 2⟩ ∧
    ¬ (handed .sent 31 [pieceOrder]).pieceWaits carriageRecord ⟨7, 0, .sent, 2⟩ ∧
    (handed .sent 31 []).stationOf .carriage (some 0) (some .a) = some carriageRecord ∧
    (handed .sent 31 []).stationAt 4 = some carriageRecord ∧
    ((handed .sent 31 []).carriage 0 .a).inHand = some ⟨7, 0, .sent, 2⟩ := by decide +kernel

theorem test_case_no_step_on : ∀ r ∈ stations, one.noStepOn r := by decide +kernel

/-- What the three departures of a carriage leave in its hand and of its spindle (R95). -/
theorem test_carriage_leaves :
    ((after (exec (.silenceTimerExpiry 4) (handed .sent 31 []))).carriage 0 .a).inHand = some ⟨7, 0, .sent, 2⟩ ∧
    ((after (exec (.silenceTimerExpiry 4) (handed .waiting 31 [pieceOrder]))).spindle 0 7).state = .queued ∧
    ((after (exec (.stationReset headM [4]) (handed .sent 31 []))).spindle 0 7).state = .queued ∧
    ((after (exec (.stationDisable headM [4]) (handed .sent 32 []))).spindle 0 7).state = .broken := by
  decide +kernel

/-- DeliveryReport: no reference, a delta at the maximum, and one above it. -/
theorem test_case_delivery : one.ready .floor (floorTelegram (headF 1) kindDeliveryReport [0, 100, 1, 0, 9]) ∧
    delivery? [0, 100, 1, 0, 9] = some ⟨100, .running, 9⟩ ∧ (one.di.get 0).reference = none ∧
    one.stationAt 1 = some driveRecord ∧
    ((one.setDelivery 0 ⟨0, 999, some 0, none⟩).di.get 0).reference = some 0 ∧
    ¬ (one.record 0).maxPulses.toNat < (100 + 65536 - 0) % 65536 ∧
    (one.record 0).maxPulses.toNat < (101 + 65536 - 0) % 65536 ∧ one.unwatched ∧ one.trainFree = false ∧
    one.mu.row.permitLimit.toNat ≤ ({ one with ds := { one.ds with permits := 1 } } : State).ds.permits := by
  decide +kernel

/-- GaugeAndEstimate: a current bay with no spindle STARVED, and one with some and no carriage there. -/
def uncarried : State := (serving false).setMu
  { one.mu with frames := #v[{ record with carriageA := 0 }, .default, .default, .default] }

theorem test_case_marks : (serving false).rc.current = some ⟨⟨0, .a, 0⟩, false⟩ ∧
    (∀ p ∈ (serving false).bayPositions ⟨0, .a, 0⟩, ((serving false).spindle 0 p).state ≠ .starved ∧
      (serving false).sideOf 0 p = .a ∧ p < 1536) ∧
    ((uncarried.setSpindleState 0 47 .starved).spindle 0 47).state = .starved ∧
    uncarried.inService 0 .a = false ∧ 47 ∈ uncarried.bayPositions ⟨0, .a, 0⟩ ∧
    (∀ p ∈ uncarried.bayPositions ⟨0, .a, 0⟩, uncarried.sideOf 0 p = .a ∧ p < 1536) := by decide +kernel

/-- SectionReport: a section of spindles in no list and no hand, the last section of the side, and a frame
that stands. -/
theorem test_case_section : one.ready .floor (floorTelegram (headF 2) kindSectionReport yarn0) ∧
    sectionBody? yarn0 = some ⟨0, List.replicate 24 .yarn⟩ ∧
    sectionBody? [1, 0, 0, 0, 0, 0, 0] = some ⟨1, List.replicate 24 .yarn⟩ ∧ 1 < one.perSide 0 / 24 ∧
    2 * one.perSide 0 ≤ 1536 ∧ one.frameState 0 = .spinning ∧ one.unwatched ∧
    (∀ c ∈ List.replicate 24 SpindleCode.yarn, c = .yarn) ∧
    (∀ p, p < 24 → (one.spindle 0 p).state ≠ .queued ∧ (one.spindle 0 p).state ≠ .piecing) ∧
    (one.stationAt 2).map (fun r => (r.role, r.frame, r.side, r.link)) = some (.strip, some 0, some .a, .active) ∧
    (withFrame one .standing).frameState 0 ≠ .spinning ∧
    sectionBody? [0, 0x1B, 0, 0, 0, 0, 0xFF] =
      some ⟨0, [.yarn, .down, .braked, .noRoving] ++ List.replicate 16 .yarn ++ List.replicate 4 .noRoving⟩ ∧
    sectionBody? [2, 0, 0, 0, 0, 0, 0] = some ⟨2, List.replicate 24 .yarn⟩ ∧ one.perSide 0 / 24 ≤ 2 ∧
    sectionBody? [0, 0] = none := by decide +kernel

/-- BreaksAndDashes: a RUNNING spindle at the last record, and each state with a dash. -/
def spinning (p : Nat) : State := one.setSpindle 0 p { SpindleRecord.fresh with state := .running, runMark := some 0 }

theorem test_case_breaks : ((spinning 1535).spindle 0 1535).state = .running ∧
    ((spinning 1535).spindle 0 1535).runMark = some 0 ∧
    (∀ st ∈ [SpindleState.piecing, .unseen, .running, .broken, .queued, .starved, .locked],
      ((one.setSpindleState 0 3 st).spindle 0 3).state = st) ∧
    one.inService 0 (one.sideOf 0 3) = true ∧ (one.carriage 0 .a).list.length < 32 ∧
    one.inService 1 (one.sideOf 1 3) = false ∧
    (∀ c ∈ [CallClass.none, .planned, .urgent, .serving],
      ((one.setBay ⟨0, .a, 0⟩ ⟨0, c, none⟩).bay (one.bayOf 0 3)).cls = c) := by decide +kernel

/-- CarriageReport: a report with no outcome, and one that answers the hand. -/
def pieced : State := withFrame (one.setCarriage 0 .a (holding .sent)) .standing

theorem test_case_carriage : pieced.ready .floor (floorTelegram (headF 4) kindCarriageReport [0, 7, 0, 0, 1, 0, 7]) ∧
    carriage? [0, 7, 0, 0, 1, 0, 7] = some ⟨7, .up, .ready, some (.pieced, 7)⟩ ∧
    carriage? [0, 47, 1, 3, 0, 0, 0] = some ⟨47, .down, .parked, none⟩ ∧
    pieced.carriageBodyFits 0 .a ⟨7, .up, .ready, some (.pieced, 7)⟩ = true ∧
    pieced.carriageBodyFits 0 .a ⟨47, .down, .parked, none⟩ = true ∧
    (pieced.carriage 0 .a).inHand = some ⟨7, 0, .sent, 2⟩ ∧ (pieced.carriage 0 .a).list = [] ∧
    pieced.frameState 0 ≠ .spinning ∧ pieced.unwatched ∧
    (pieced.stationAt 4).map (fun r => (r.role, r.frame, r.side, r.link)) =
      some (.carriage, some 0, some .a, .active) := by decide +kernel

/-- CarriageReport: an outcome that answers the hand and a stray one; the attempt below and at the limit; a
list with room and a full one; work to issue, none, and a spindle to refill with. -/
def listing (n : Nat) : State :=
  one.setCarriage 0 .a { CarriageRecord.fresh with ready := true, list := (List.range n).map fun p => ⟨p, false⟩ }

theorem test_case_outcomes : carriage? [0, 7, 0, 0, 5, 0, 8] = some ⟨7, .up, .ready, some (.failed, 8)⟩ ∧
    pieced.carriageBodyFits 0 .a ⟨7, .up, .ready, some (.failed, 8)⟩ = true ∧
    (pieced.carriage 0 .a).ready = false ∧ (pieced.carriage 0 .a).parked = false ∧
    (one.record 0).attemptLimit.toNat = 3 ∧ (pieced.spindle 0 7).attempts.toNat + 1 < 3 ∧
    ((listing 31).carriage 0 .a).list.length < 32 ∧ 32 ≤ ((listing 32).carriage 0 .a).list.length ∧
    (listing 1).inService 0 .a = true ∧ (listing 1).carriageActive 0 .a = true ∧
    (listing 1).frameState 0 = .spinning ∧ ((listing 1).carriage 0 .a).list ≠ [] ∧
    (((listing 31).carriage 0 .a).list.map (·.position)).Pairwise (· < ·) ∧
    ((one.setSpindleState 0 3 .broken).sidePositions 0 .a).filter
      (fun p => ((one.setSpindleState 0 3 .broken).spindle 0 p).state == .broken) = [3] := by decide +kernel

/-- PiecingExpiry: a carriage that is not ACTIVE, and one that is. -/
def piecingB : State := one.setCarriage 0 .b { holding .sent with inHand := some ⟨60, 0, .sent, 2⟩ }

theorem test_case_piecing_expiry : (piecingB.carriage 0 .b).piecing = .running 500 ∧
    (piecingB.carriage 0 .b).inHand = some ⟨60, 0, .sent, 2⟩ ∧ piecingB.carriageActive 0 .b = false ∧
    piecingB.unwatched ∧ (pieced.carriage 0 .a).piecing = .running 500 ∧
    pieced.stationOf .carriage (some 0) (some .a) =
      pieced.stationAt (carriageAddress (pieced.record 0) .a) ∧
    (pieced.stationAt 4).map (·.link) = some .active ∧ (pieced.carriage 0 .a).ready = false ∧
    (pieced.carriage 0 .a).parked = false ∧ pieced.mu.row.errorLimit = 0 ∧
    (pieced.carriage 0 .a).list.length < 32 := by decide +kernel

/-- ParkExpiry: a timer that runs, one that stands, one that never expires. -/
theorem test_case_park : ((one.setCarriage 0 .a { CarriageRecord.fresh with park := .running 1 }).carriage 0 .a).park =
      .running 1 ∧ (one.carriage 0 .a).park = .stopped ∧
    ((one.setCarriage 0 .a { CarriageRecord.fresh with park := .endless }).carriage 0 .a).park = .endless := by
  decide +kernel

/-- StepReportEnds: a report that is REFUSED, one that is short, and one that completes the step. -/
def commanding : State := withStep (one.setChannel 0 (standing .sent (.running 70))) commandStep

theorem test_case_step_report : commanding.ready .floor (floorTelegram (headF 4) kindStepReport [0, 0, 5, 9]) ∧
    stepReport? [2, 0, 5, 9] = some ⟨.refused, 5, 9⟩ ∧ stepReport? [0, 0, 4, 9] = some ⟨.done, 4, 9⟩ ∧
    stepReport? [0, 0, 5, 9] = some ⟨.done, 5, 9⟩ ∧ (commanding.channel 0).phase = some .sent ∧
    (commanding.channel 0).address = some 0 ∧ (commanding.channel 0).cause = some .management ∧
    target? (commanding.stepAt 0).target = some (.carriage, some .a) ∧ (commanding.stepAt 0).action = 9 ∧
    (commanding.stepAt 0).quantity ≠ 0 ∧ (commanding.stepAt 0).slack = false ∧
    (commanding.stepAt 0).chain = false ∧ commanding.unwatched ∧ commanding.ds.queue = [] ∧
    commanding.rc.calls = [] ∧ (commanding.stationAt 4).map stationChannel = some 0 := by decide +kernel

/-- A COMMAND step with CHAIN at an address of channel 0, in SENT. -/
def chained (a : Nat) : State :=
  (one.setChannel 0 { standing .sent (.running 70) with address := some a }).setSe
    { (one.setChannel 0 { standing .sent (.running 70) with address := some a }).se with
      steps := putNat one.se.steps a { commandStep with flags := 1 } }

/-- The ending that a command leaves on channel 0. -/
def ended (c : Instr) (s : State) : Option (EndCondition × Nat) :=
  ((after (exec c s)).channel 0).ending.map fun e => (e.condition, e.lastStep)

/-- StepReportEnds: the step after DONE and after DONE-ADVANCE, an END word each; above 511 a SEQUENCE
CHECK; a report with another echo and one with a wrong body, which touch no channel. -/
theorem test_step_report_chain : ended (.stepReport (headF 4) [0, 0, 5, 9]) (chained 0) = some (.normal, 1) ∧
    ended (.stepReport (headF 4) [1, 0, 5, 9]) (chained 0) = some (.normal, 2) ∧
    ended (.stepReport (headF 4) [0, 0, 5, 9]) (chained 510) = some (.normal, 511) ∧
    ended (.stepReport (headF 4) [1, 0, 5, 9]) (chained 510) = some (.sequenceCheck, 510) ∧
    ended (.stepReport (headF 4) [0, 0, 5, 9]) (chained 511) = some (.sequenceCheck, 511) ∧
    (∀ b ∈ [[0, 0, 5, 8], [3, 0, 5, 9], [0]],
      (after (exec (.stepReport (headF 4) b) (chained 0))).channel 0 = (chained 0).channel 0 ∧
      ((after (exec (.stepReport (headF 4) b) (chained 0))).stationAt 4).map (·.errorCount) = some 1) := by
  decide +kernel

/-- StationLeft: a step in SENT, and one in WAITING whose STEP COMMAND waits, end STATION LOST. -/
def waitingStep : State :=
  (withStep (one.setChannel 0 { standing .waiting .stopped with order := some 2 }) commandStep).setLi
    { one.li with floorOrders := [stepOrder] }

theorem test_step_lost : commanding.stepOn carriageRecord 0 ∧ waitingStep.stepOn carriageRecord 0 ∧
    ended (.silenceTimerExpiry 4) commanding = some (.stationLost, 0) ∧
    ended (.stationReset headM [4]) commanding = some (.stationLost, 0) ∧
    ended (.stationDisable headM [4]) waitingStep = some (.stationLost, 0) := by decide +kernel

/-- StepTimerExpiry: a step in SENT, in WATCHING and in TIMING. -/
theorem test_case_step_timer :
    (∀ p ∈ [StepPhase.sent, .watching, .timing],
      (one.setChannel 0 (standing p (.running 3))).channel 0 = standing p (.running 3)) ∧
      ((withStep one waitStep).stepAt 0).chain = false ∧
      (∀ g, frameChannel g ≠ 0 → (one.channel (frameChannel g)).phase ≠ some .watching) := by decide +kernel

/-- A step of channel 0 that waits with its timer: a WAIT, or an AWAIT. -/
def timed (p : StepPhase) (w : StepWord) : State := withStep (one.setChannel 0 (standing p (.running 30))) w

/-- StepTimerExpiry: a WAIT with CHAIN goes on to the END after it; an AWAIT whose condition holds completes,
with CHAIN and without, and one whose condition does not hold waits on; a RESET REPORT of the drive
clears its flag, which completes an AWAIT DRIVE STOPPED. -/
theorem test_await : ended (.stepTimerExpiry 0) (timed .timing { waitStep with flags := 1 }) = some (.normal, 1) ∧
    ((timed .watching awaitStep).watchFrame 0).channel 0 = standing .watching (.running 30) ∧
    (((timed .watching { awaitStep with argument := 2 }).watchFrame 0).channel 0).ending.map (·.lastStep) = some 0 ∧
    (((timed .watching { awaitStep with argument := 3, flags := 1 }).watchFrame 0).channel 0).ending.map
      (·.lastStep) = some 1 ∧
    ended (.resetReport (headF 1) []) (timed .watching awaitStep) = some (.normal, 0) ∧
    one.frameState 0 = .spinning ∧ (withFrame one .standing).frameState 0 ≠ .spinning := by decide +kernel

end Slice0
end

/-! PROOFS. The delivery accounts: what a power-on reset gives them (O25), READ of the tables, of a
frame and of step words (O29), and the gauge, the estimate and the two marks (O53). -/

namespace Sys2Proof.Machine.DeliveryAccounting

/-! ### Places of replies and notices

A reply or a NOTICE touches the Line Interface and the Management Unit alone. -/

/-- The mill transmitter's choice touches the Line Interface alone. -/
theorem millChoice_eq_setLi (s : State) : ∃ x, s.millChoice = s.setLi x := by
  unfold State.millChoice
  split
  · exact ⟨s.li, rfl⟩
  · split <;> exact ⟨_, rfl⟩

/-- Telling the notices touches the Management Unit and the Line Interface alone (R175). -/
theorem tellNotices_eq_setMu_setLi (s : State) : ∃ m x, s.tellNotices = (s.setMu m).setLi x := by
  unfold State.tellNotices
  split
  · obtain ⟨x, h⟩ := millChoice_eq_setLi ((s.setMu { s.mu with
      told := s.mu.told ||| s.owed
      moderation := s.startModeration }).setLi { s.li with
        millReplies := s.li.millReplies ++ [noticeTelegram s.owed s.mu.latched] })
    exact ⟨_, x, h⟩
  · exact ⟨s.mu, s.li, rfl⟩

/-! ### The power-on reset (R58, R78) -/

/-- An entry of a table whose entries are all alike. -/
theorem replicate_get {α : Type} {n : Nat} (x : α) (i : Fin n) : (Vector.replicate n x).get i = x :=
  Vector.getElem_replicate ..

/-- A power-on reset leaves, of the blocks without tables, what the load gives. -/
theorem powerOn_accounts (s : State) : ∃ x m, s.powerOn =
    (((s.cutSave.loaded s.cutSave.mu.store).buildStations).setMu m).setLi x := by
  obtain ⟨m, x, h⟩ := tellNotices_eq_setMu_setLi (s.cutSave.loaded s.cutSave.mu.store).buildStations
  exact ⟨x, m, h⟩

/-- The spindle records of a cleared frame are fresh at every position, beyond the table too. -/
theorem fresh_record (p : Nat) : FrameSpindles.fresh.records.toList.getD p .fresh = .fresh := by
  simp only [FrameSpindles.fresh, Vector.toList_replicate, List.getD_eq_getElem?_getD,
    List.getElem?_replicate]
  split <;> rfl

/-- Settles O25: the notices told last touch no account, and the load gives each its first value. -/
theorem powerOnClearsAccounts : Obligations.PowerOnClearsAccounts := by
  intro s
  obtain ⟨x, m, h⟩ := powerOn_accounts s
  have spindles : ∀ f, s.powerOn.spt.get f = .fresh := fun f => by
    rw [h]
    exact replicate_get _ f
  refine ⟨s.powerOn, rfl, fun f => ?_, fun b => ?_, fun f p => ?_, fun f => ?_, ?_⟩
  · rw [h]
    exact ⟨replicate_get _ f, replicate_get _ f⟩
  · rw [h]
    exact congrArg BayRecord.mark (replicate_get BayRecord.fresh (bayIx b))
  · rw [State.spindle, spindles]
    exact fresh_record p
  · rw [State.runningCount, spindles]
    rfl
  · rw [h]
    exact ⟨rfl, rfl, rfl, fun f => replicate_get _ f, rfl, rfl⟩

/-! ### READ (R167) -/

/-- The reply to a READ: an ANSWER with the item's data, or a refusal. -/
def readAnswer (h : MillHead) : ReadResult → Telegram
  | .data bs => answerTo h bs
  | .refused r => refusedTo h kindRead r

/-- The fields of a READ whose body after the item code is `r` (R180). -/
def fieldsOf (r : List Byte) : ReadFields where
  selector1 := byteAt r 0
  selector2 := byteAt r 1
  start := (halfAt r 2).toNat
  count := (byteAt r 4).toNat

theorem readFields_readTelegram (h : MillHead) (item : Byte) (r : List Byte) :
    readFields (readTelegram h item r).body = fieldsOf r := rfl

/-- The one reply of a READ is the answer to its item (R167). -/
theorem readReply_readTelegram (s : State) (h : MillHead) (item : Byte) (r : List Byte) :
    s.readReply (readTelegram h item r) = s.replied (readAnswer h (s.readItem item (fieldsOf r))) := by
  unfold State.readReply
  rw [readFields_readTelegram, show byteAt (readTelegram h item r).body 1 = item from rfl]
  cases s.readItem item (fieldsOf r) <;> rfl

/-- A management telegram for which the reply queue has room arrives whole (R8, R13). -/
theorem arrive_managed {s : State} {t : Telegram} (e : TelegramEnd) (h : s.takes t)
    (part : t.mark = .part) :
    s.arrive .mill t e = State.thenEnded .mill ((s.received .mill e).manage t) e := by
  obtain ⟨ready, room⟩ := h
  have room' : (s.received .mill e).replyRoom = true := room
  rw [State.arrive_mill e ready]
  simp only [State.millArrival, part, State.management, room', if_true]

/-- A READ of the right length, for which the reply queue has room, is answered with its item. -/
theorem arrive_read {s : State} {h : MillHead} {item : Byte} {r : List Byte} {x : ReadResult}
    (len : r.length = 5) (k : s.takes (readTelegram h item r))
    (hx : (s.received .mill h.ends).readItem item (fieldsOf r) = x) :
    s.arrive .mill (readTelegram h item r) h.ends =
      (s.received .mill h.ends).answers h (readAnswer h x) := by
  have right : mgmtLengthOk .read (readTelegram h item r).body.length = true := by
    simp only [readTelegram, millTelegram, List.length_cons, len, mgmtLengthOk]
    rfl
  have managed : (s.received .mill h.ends).manage (readTelegram h item r) =
      (s.received .mill h.ends).readReply (readTelegram h item r) := by
    simp only [State.manage, show mgmtKind? (readTelegram h item r).kind = some .read from rfl, right, if_true]
  rw [arrive_managed h.ends k rfl, managed, readReply_readTelegram, hx]
  rfl

/-- Data after one test (R167). -/
theorem answerAfter_one (b : Bool) (reason : Reason) (bs : List Byte) :
    answerAfter [(b, reason)] bs = if b then .refused reason else .data bs := by
  cases b <;> rfl

/-- A byte that is the number of a frame names it. -/
theorem frameNo?_of_toNat {b : Byte} {f : FrameNo} (h : b.toNat = f.val) : frameNo? b = some f := by
  simp only [frameNo?, h, f.isLt, dif_pos]

/-- READ of a frame whose number and part are right (R60, R167). -/
theorem readFrameItem_of_frame (s : State) {x : ReadFields} {f : FrameNo} (h : x.selector1.toNat = f.val)
    (k : x.selector2.toNat ≤ 1) : s.readFrameItem x =
      .data (if x.selector2 = 0 then frameRecordBytes (s.record f) else s.frameItems f) := by
  simp only [State.readFrameItem, frameNo?_of_toNat h, answerAfter_one, Nat.not_lt.mpr k, decide_false,
    Bool.false_eq_true, if_false]

/-- READ of a frame that is none, or of a part that is none (R167). -/
theorem readFrameItem_refused (s : State) {x : ReadFields}
    (h : 4 ≤ x.selector1.toNat ∨ 2 ≤ x.selector2.toNat) : s.readFrameItem x = .refused .badField := by
  by_cases frame : x.selector1.toNat < 4
  · have part : 1 < x.selector2.toNat := by omega
    simp only [State.readFrameItem, frameNo?, frame, dif_pos, answerAfter_one, part, decide_true, if_true]
  · simp only [State.readFrameItem, frameNo?, frame, dif_neg, not_false_eq_true]

/-- READ of step words: the words in force, or BAD FIELD for a count or a range that is wrong (R99). -/
theorem readWords_eq (s : State) (x : ReadFields) : s.readWords x =
    if x.count = 0 ∨ 7 < x.count ∨ 512 < x.start + x.count then .refused .badField
    else .data ((numbersFrom x.start x.count).flatMap fun a => stepWordBytes (s.stepAt a)) := by
  simp only [State.readWords, answerAfter_one, Bool.or_eq_true, beq_iff_eq, decide_eq_true_eq, or_assoc]

theorem exec_readRowTable (h : MillHead) (r : List Byte) (s : State) :
    exec (.readRowTable h r) s = .next (s.arrive .mill (readTelegram h 1 r) h.ends) := rfl

theorem exec_readFrame (h : MillHead) (r : List Byte) (s : State) :
    exec (.readFrame h r) s = .next (s.arrive .mill (readTelegram h 2 r) h.ends) := rfl

theorem exec_readStepWords (h : MillHead) (r : List Byte) (s : State) :
    exec (.readStepWords h r) s = .next (s.arrive .mill (readTelegram h 3 r) h.ends) := rfl

/-- Settles O29: a READ that is taken is answered with its item, and an arrival leaves the items. -/
theorem readTables : Obligations.ReadTables := by
  intro s h r len
  refine ⟨fun k => ?row, fun k => ⟨fun f frame part => ?record, fun f frame part => ?items, fun wrong => ?wrong⟩,
    fun k => ?words⟩
  case row =>
    have item : (s.received .mill h.ends).readItem 1 (fieldsOf r) = .data (rowTableBytes s.mu.row) := rfl
    rw [exec_readRowTable, arrive_read len k item]
    rfl
  case record =>
    have part' : (fieldsOf r).selector2 = 0 := part
    have item := readFrameItem_of_frame (s.received .mill h.ends) (x := fieldsOf r) frame
      (by rw [part']; decide)
    rw [if_pos part'] at item
    rw [exec_readFrame, arrive_read len k item]
    rfl
  case items =>
    have part' : (fieldsOf r).selector2 = 1 := part
    have item := readFrameItem_of_frame (s.received .mill h.ends) (x := fieldsOf r) frame
      (by rw [part']; decide)
    rw [if_neg (by rw [part']; decide)] at item
    rw [exec_readFrame, arrive_read len k item]
    rfl
  case wrong =>
    have item := readFrameItem_refused (s.received .mill h.ends) (x := fieldsOf r) wrong
    rw [exec_readFrame, arrive_read len k item]
    rfl
  case words =>
    rw [exec_readStepWords, arrive_read len k (readWords_eq (s.received .mill h.ends) (fieldsOf r)),
      apply_ite (readAnswer h)]
    rfl

/-! ### The gauge and the roving estimate (R50, R51) -/

/-- A difference of odometer values, modulo 2^40 (R44). -/
theorem mm_sub_toNat (x y : Mm) : (x - y).toNat = (x.toNat + 1099511627776 - y.toNat) % 1099511627776 := by
  rw [BitVec.toNat_sub]
  omega

theorem gauge_eq (s : State) (f : FrameNo) : s.gauge f =
    ((s.odometer f).toNat + 1099511627776 - (s.ds.marks.get f).toNat) % 1099511627776 := mm_sub_toNat ..

theorem bayAdvance_eq (s : State) (b : BayId) : s.bayAdvance b =
    ((s.odometer b.frame).toNat + 1099511627776 - (s.bay b).mark.toNat) % 1099511627776 := mm_sub_toNat ..

/-- The remaining roving holds at 0 once more than a full bay has been used (R51 step 3). -/
theorem bayRemaining_eq (s : State) (b : BayId) :
    let full := (s.record b.frame).bayFull.toNat * 1000
    let used := s.bayAdvance b * 100 / (s.record b.frame).draft.toNat
    s.bayRemaining b = if used ≤ full then full - used else 0 := by
  intro full used
  rw [show s.bayRemaining b = full - used from rfl]
  split <;> omega

theorem doffDue_iff (s : State) (f : FrameNo) :
    s.doffDue f = true ↔ (s.record f).doffLength.toNat * 1000 ≤ s.gauge f := decide_eq_true_iff

theorem bayDue_iff (s : State) (b : BayId) :
    s.bayDue b = true ↔ s.bayRemaining b ≤ (s.record b.frame).reserve.toNat * 1000 := decide_eq_true_iff

/-! ### DOFF MARK (R133) -/

/-- What a place of a table reads as once the first entries have been changed. -/
theorem mapFirst_getD {α : Type} {n k : Nat} (v : Vector α n) (g : α → α) (d : α) (hk : k ≤ n) (p : Nat) :
    (mapFirst k g v).toList.getD p d = if p < k then g (v.toList.getD p d) else v.toList.getD p d := by
  have len : (v.toList.take k).length = k := by simp [hk]
  simp only [mapFirst_toList, List.getD_eq_getElem?_getD]
  split
  · next h =>
    have inside : p < v.toList.length := by simp; omega
    rw [List.getElem?_append_left (by rw [List.length_map, len]; exact h), List.getElem?_map,
      List.getElem?_take_of_lt h, List.getElem?_eq_getElem inside]
    rfl
  · next h =>
    rw [List.getElem?_append_right (by rw [List.length_map, len]; omega), List.length_map, len,
      List.getElem?_drop, Nat.add_sub_cancel' (Nat.not_lt.mp h)]

/-- The frame's spindles after its DOFF MARK. -/
theorem doffMark_spt (s : State) (f : FrameNo) : (s.doffMark f).spt = putAt s.spt f { s.spt.get f with
    records := mapFirst (2 * s.perSide f) (doffRecord (s.odometer f)) (s.spt.get f).records } := rfl

/-- A record after a DOFF MARK: folded if RUNNING, its cop 0 (R133 step 1). -/
theorem doffRecord_eq (odo : Mm) (r : SpindleRecord) : doffRecord odo r =
    match r.state, r.runMark with
    | .running, some _ => { r with cop := 0, runMark := some odo }
    | _, _ => { r with cop := 0 } := by
  obtain ⟨state, runMark, _⟩ := r
  cases runMark <;> cases state <;> rfl

/-- The record at a position after the frame's DOFF MARK. -/
theorem doffMark_spindle (s : State) (f : FrameNo) (fits : 2 * s.perSide f ≤ 1536) (p : Nat) :
    (s.doffMark f).spindle f p =
      if p < 2 * s.perSide f then doffRecord (s.odometer f) (s.spindle f p) else s.spindle f p := by
  rw [State.spindle, doffMark_spt, putAt_get_same]
  exact mapFirst_getD _ _ _ fits p

/-! ### Spindle records -/

theorem setSpindle_spindle_same (s : State) (f : FrameNo) {p : Nat} (h : p < 1536) (r : SpindleRecord) :
    (s.setSpindle f p r).spindle f p = r := by
  have inside : p < (s.spt.get f).records.toList.length := by simpa using h
  show (((putAt s.spt f _).get f).records.toList).getD p .fresh = r
  rw [putAt_get_same, putNat_toList, List.getD_eq_getElem?_getD, List.getElem?_set_self inside]
  rfl

theorem setSpindle_spindle_other (s : State) (f : FrameNo) {p q : Nat} (h : q ≠ p) (r : SpindleRecord) :
    (s.setSpindle f p r).spindle f q = s.spindle f q := by
  show (((putAt s.spt f _).get f).records.toList).getD q .fresh = _
  rw [putAt_get_same, putNat_toList, List.getD_eq_getElem?_getD, List.getElem?_set_ne h.symm,
    ← List.getD_eq_getElem?_getD]
  rfl

theorem setSpindle_frame_other (s : State) {f g : FrameNo} (h : g ≠ f) (p : Nat) (r : SpindleRecord) :
    (s.setSpindle f p r).spt.get g = s.spt.get g := putAt_get_other _ h.symm _

theorem setSpindle_runningCount (s : State) (f g : FrameNo) (p : Nat) (r : SpindleRecord) :
    (s.setSpindle f p r).runningCount g = s.runningCount g :=
  ((Walks.refl s).setSpindle f p r).running g

/-! ### The STARVED spindles of an exchanged bay (R149 step 3) -/

/-- From `s` to `t` the STARVED spindles of a frame among `ps` have become BROKEN, and nothing else has
changed. -/
structure Unstarved (f : FrameNo) (ps : List Nat) (s t : State) : Prop where
  rest : t = s.setSpt t.spt
  broken : ∀ p, p ∈ ps ∧ (s.spindle f p).state = .starved →
    t.spindle f p = { s.spindle f p with state := .broken }
  kept : ∀ p, ¬ (p ∈ ps ∧ (s.spindle f p).state = .starved) → t.spindle f p = s.spindle f p
  running : ∀ g, t.runningCount g = s.runningCount g
  others : ∀ g, g ≠ f → t.spt.get g = s.spt.get g

/-- Where no position is STARVED, nothing changes. -/
theorem Unstarved.refl {f : FrameNo} {ps : List Nat} {s : State}
    (h : ∀ p ∈ ps, (s.spindle f p).state ≠ .starved) : Unstarved f ps s s :=
  ⟨rfl, fun p k => absurd k.2 (h p k.1), fun _ _ => rfl, fun _ => rfl, fun _ _ => rfl⟩

/-- A spindle that is STARVED afterwards was so before. -/
theorem Unstarved.starved_before {f : FrameNo} {ps : List Nat} {s t : State} (h : Unstarved f ps s t) {p : Nat}
    (k : (t.spindle f p).state = .starved) : p ∉ ps ∧ (s.spindle f p).state = .starved := by
  by_cases hp : p ∈ ps ∧ (s.spindle f p).state = .starved
  · rw [h.broken p hp] at k
    exact nomatch k
  · rw [h.kept p hp] at k
    exact ⟨fun m => hp ⟨m, k⟩, k⟩

theorem Unstarved.trans {f : FrameNo} {ps qs : List Nat} {s t u : State} (h : Unstarved f ps s t)
    (k : Unstarved f qs t u) : Unstarved f (ps ++ qs) s u where
  rest := by rw [k.rest, h.rest]; rfl
  broken p hp := by
    obtain ⟨mem, starved⟩ := hp
    by_cases first : p ∈ ps
    · have now := h.broken p ⟨first, starved⟩
      rw [k.kept p fun q => (h.starved_before q.2).1 first, now]
    · have now := h.kept p fun q => first q.1
      have second : p ∈ qs := (List.mem_append.mp mem).resolve_left first
      rw [k.broken p ⟨second, by rw [now]; exact starved⟩, now]
  kept p hp := by
    have now := h.kept p fun q => hp ⟨List.mem_append_left _ q.1, q.2⟩
    rw [k.kept p fun q => hp ⟨List.mem_append_right _ q.1, by rw [← now]; exact q.2⟩, now]
  running g := (k.running g).trans (h.running g)
  others g hg := (k.others g hg).trans (h.others g hg)

/-- One position: a STARVED spindle becomes BROKEN, and is offered to no carriage when none is in service
on its side (R74, R83). -/
theorem unstarve_one {f : FrameNo} {s : State} {p : Nat} (hp : p < 1536)
    (h : (s.spindle f p).state = .starved → s.inService f (s.sideOf f p) = false) :
    Unstarved f [p] s (State.unstarve f s p) := by
  by_cases starved : (s.spindle f p).state = .starved
  · have offered : State.unstarve f s p = s.setSpindle f p { s.spindle f p with state := .broken } := by
      have none : (s.setSpindleState f p .broken).inService f ((s.setSpindleState f p .broken).sideOf f p) = false :=
        h starved
      simp only [State.unstarve, if_pos starved, State.offerSpindle, none, Bool.false_and, Bool.false_eq_true, if_false]
      rfl
    rw [offered]
    refine ⟨rfl, fun q hq => ?_, fun q hq => ?_, fun g => setSpindle_runningCount ..,
      fun g hg => setSpindle_frame_other _ hg ..⟩
    · obtain rfl : q = p := List.mem_singleton.mp hq.1
      exact setSpindle_spindle_same s f hp _
    · exact setSpindle_spindle_other s f (fun e => hq ⟨List.mem_singleton.mpr e, e ▸ starved⟩) _
  · rw [State.unstarve, if_neg starved]
    exact .refl fun q hq => List.mem_singleton.mp hq ▸ starved

/-- All positions of a bay, where no STARVED spindle has a carriage in service on its side. -/
theorem unstarve_all {f : FrameNo} : ∀ (ps : List Nat) {s : State}, (∀ p ∈ ps, p < 1536) →
    (∀ p ∈ ps, (s.spindle f p).state = .starved → s.inService f (s.sideOf f p) = false) →
    Unstarved f ps s (ps.foldl (State.unstarve f) s) := by
  intro ps
  induction ps with
  | nil => exact fun _ _ => .refl fun _ h => nomatch h
  | cons p ps ih =>
    intro s inside h
    have first : Unstarved f [p] s (State.unstarve f s p) :=
      unstarve_one (inside p List.mem_cons_self) (h p List.mem_cons_self)
    refine first.trans (ih (fun q hq => inside q (List.mem_cons_of_mem _ hq)) fun q hq starved => ?_)
    have before := h q (List.mem_cons_of_mem _ hq) (first.starved_before starved).2
    rw [first.rest]
    exact before

/-! ### EXCHANGE MARK (R149) -/

/-- The Roving Controller with a bay's mark set to the odometer and its call removed (R149 steps 1 and 2). -/
def refilled (s : State) (b : BayId) : RovingController :=
  { s.rc with
    bays := putAt s.rc.bays (bayIx b) ⟨s.odometer b.frame, .none, none⟩
    calls := s.rc.calls.filter fun x => x != b }

theorem putAt_putAt {α : Type} {n : Nat} (v : Vector α n) (i : Fin n) (x y : α) :
    putAt (putAt v i x) i y = putAt v i y := Vector.set_set ..

/-- The first two steps of an EXCHANGE MARK. -/
theorem fillBay_dropCall (s : State) (b : BayId) : (s.fillBay b).dropCall b = s.setRc (refilled s b) := by
  have mark : (((s.fillBay b).unlistCall b).bay b).mark = s.odometer b.frame :=
    congrArg BayRecord.mark (putAt_get_same s.rc.bays (bayIx b) _)
  simp only [State.dropCall, mark]
  rw [refilled, ← putAt_putAt s.rc.bays]
  rfl

/-- An EXCHANGE MARK whose STARVED spindles have no carriage in service on their side: the bay is refilled,
its STARVED spindles broken, the exchange counted and the bay marked. -/
theorem exchangeMark_eq {s : State} {c : CurrentBay} (h : s.rc.current = some c)
    (inside : ∀ p ∈ s.bayPositions c.bay, p < 1536)
    (k : ∀ p ∈ s.bayPositions c.bay, (s.spindle c.bay.frame p).state = .starved →
      s.inService c.bay.frame (s.sideOf c.bay.frame p) = false) :
    ∃ x, Unstarved c.bay.frame (s.bayPositions c.bay) s (s.setSpt x) ∧ s.exchangeMark =
      (((s.setSpt x).onEntry c.bay.frame fun e => { e with exchanges := satAdd e.exchanges 1 }).setRc
        { refilled s c.bay with current := some { c with marked := true } }) := by
  have all := unstarve_all (s := s.setRc (refilled s c.bay)) (s.bayPositions c.bay) inside k
  have refill : (s.setBay c.bay { s.bay c.bay with mark := s.odometer c.bay.frame }).dropCall c.bay =
      s.setRc (refilled s c.bay) := fillBay_dropCall s c.bay
  have places : (s.setRc (refilled s c.bay)).bayPositions c.bay = s.bayPositions c.bay := rfl
  simp only [State.exchangeMark, h, refill, places]
  generalize (s.bayPositions c.bay).foldl (State.unstarve c.bay.frame) (s.setRc (refilled s c.bay)) = u at all ⊢
  obtain ⟨rest, broken, kept, running, others⟩ := all
  generalize u.spt = x at rest
  subst rest
  exact ⟨x, ⟨rfl, broken, kept, running, others⟩, rfl⟩

/-- The bays beside the refilled one are as they were. -/
theorem refilled_bay_other (s : State) {a b : BayId} (h : a ≠ b) :
    (refilled s b).bays.get (bayIx a) = s.bay a :=
  putAt_get_other _ (fun e => h (bayIx_inj.mp e).symm) _

/-! ### The marks together -/

/-- Settles O53: the gauge and the estimate by value, and each mark by what it does and leaves. -/
theorem gaugeAndEstimate : Obligations.GaugeAndEstimate := by
  refine ⟨fun s f sd i => ?estimate, fun s f fits => ?doff, fun s c current => ?exchange⟩
  case estimate =>
    have remaining := bayRemaining_eq s ⟨f, sd, i⟩
    rw [bayAdvance_eq] at remaining
    exact ⟨gauge_eq s f, doffDue_iff s f, remaining, bayDue_iff s ⟨f, sd, i⟩⟩
  case doff =>
    refine ⟨rfl, fun p inside => ?_, fun p beyond => ?_, ?_, fun g other => ?_, ?_, fun g other => ?_, rfl, rfl, ?_,
      fun g other => ?_, rfl⟩
    · rw [doffMark_spindle s f fits, if_pos inside]
      exact doffRecord_eq ..
    · rw [doffMark_spindle s f fits, if_neg (Nat.not_lt.mpr beyond)]
    · rw [State.runningCount, doffMark_spt, putAt_get_same]
      rfl
    · exact putAt_get_other _ other.symm _
    · exact putAt_get_same ..
    · exact putAt_get_other _ other.symm _
    · exact putAt_get_same ..
    · exact putAt_get_other _ other.symm _
  case exchange =>
    intro f t starved unserved inside
    obtain ⟨x, unstarved, mark⟩ := exchangeMark_eq current (fun p hp => (inside p hp).2) fun p hp state => by
      rw [(inside p hp).1]
      exact unserved.resolve_left fun none => none p ⟨hp, state⟩
    obtain ⟨_, broken, kept, running, others⟩ := unstarved
    have t_eq : t = _ := mark
    rw [t_eq]
    exact ⟨rfl, rfl, rfl, rfl, putAt_get_same .., fun b other => refilled_bay_other s other, putAt_get_same ..,
      fun g other => putAt_get_other _ other.symm _, rfl, broken, kept, running, others⟩

end Sys2Proof.Machine.DeliveryAccounting
